-- ==== Sys2Proof/Word.lean ====
section
/-! DEFINITION. The plain words of the FD48: bytes of a frame, 32-bit identifiers and stamps, the
numbers of ports, cells, equipment positions, bins and sites, and the sets of sites, families and
options (a set is a bit vector whose bit n says that n is a member, as R195 writes it). -/

namespace Sys2Proof

/-- One byte of a frame (R1). -/
abbrev Byte := BitVec 8

/-- A 32-bit number used only to name something: a lot id, an equipment id, a program id. -/
abbrev Id := BitVec 32

/-- A count of minutes or an entry sequence, on 32 bits (R60, R171). -/
abbrev Stamp := BitVec 32

/-- One of the 34 ports (chapter 1): 0 the floor host, 1 the QA station, 2 to 33 equipment. -/
abbrev Port := Fin 34

/-- One of the 16 cell records (R34). -/
abbrev CellNo := Fin 16

/-- One of the 48 positions of the equipment table (R20). -/
abbrev Position := Fin 48

/-- A set of sites 0 to 7. -/
abbrev SiteSet := BitVec 8

/-- A set of package families or of options, each 0 to 15. -/
abbrev Set16 := BitVec 16

end Sys2Proof
end

