-- ==== Sys2Proof/Syntax.lean ====
section
/-! DEFINITION. The commands of the FD48: one constructor for each row of spec/opcode_table.json.

A row that is an event of a port, a cell or a table position carries that port, cell or position.
A row that is a request carries the port on which the request is in service: the request itself, with
its tag, source id and payload bytes, stands in that port's service slot (R7), where the frames
received on the line put it, so every field of it is read from the bytes as R9 and R195 state. -/

namespace Sys2Proof

/-- Whether the configuration store answers while it is read (R184, R186). -/
inductive StoreReply where
  | answers
  | silent
deriving DecidableEq, Repr

/-- How the read-back of a store write ends (R192). -/
inductive ReadBack where
  | same
  | differs
  | silent
deriving DecidableEq, Repr

/-- Where a power-on reset cuts a store write that is under way (R193): before the format marker was
written again, or after it, with the set in the store good or not. It says nothing when no store
write is under way. -/
inductive WriteCut where
  | beforeMarker
  | afterMarkerGood
  | afterMarkerBad
deriving DecidableEq, Repr

/-- One command, event or request of the part: one constructor per row of spec/opcode_table.json. -/
inductive Instr where
  | powerOnReset (cut : WriteCut)
  | floorReset
  | startUpLoad (reply : StoreReply)
  | storeLoadReattempt (reply : StoreReply)
  | storeWrite (result : ReadBack)
  | frameComplete (port : Port) (last : Byte)
  | lengthBelow6 (port : Port) (length : Byte)
  | gapAbort (port : Port)
  | frameSent (port : Port)
  | secondsTick
  | minuteTick
  | entryStale (position : Position)
  | entryRemoval (position : Position)
  | soakEnd (cell : CellNo)
  | negotiationDeadlineExpiry (cell : CellNo)
  | loadDeadlineExpiry (cell : CellNo)
  | settleDeadlineExpiry (cell : CellNo)
  | closeDeadlineExpiry (cell : CellNo)
  | lent (port : Port)
  | lrem (port : Port)
  | lpri (port : Port)
  | lsht (port : Port)
  | qlotSummary (port : Port)
  | qlotCounts (port : Port)
  | qlotHolds (port : Port)
  | qlotList (port : Port)
  | hold (port : Port)
  | hclr (port : Port)
  | hovc (port : Port)
  | cdck (port : Port)
  | cund (port : Port)
  | crdk (port : Port)
  | cmod (port : Port)
  | csen (port : Port)
  | qcel (port : Port)
  | cunb (port : Port)
  | qeqp (port : Port)
  | qeqpList (port : Port)
  | stak (port : Port)
  | sarm (port : Port)
  | qres (port : Port)
  | rlse (port : Port)
  | clks (port : Port)
  | wprd (port : Port)
  | wbpl (port : Port)
  | wpar (port : Port)
  | wwin (port : Port)
  | crdy (port : Port)
  | csav (port : Port)
  | frst (port : Port)
  | eann (port : Port)
  | eabl (port : Port)
  | ecnf (port : Port)
  | epld (port : Port)
  | eldf (port : Port)
  | etmp (port : Port)
  | ernd (port : Port)
  | ebin (port : Port)
  | sens (port : Port)
  | psta (port : Port)
  | unknownCode (port : Port)
  | receivedByte (port : Port) (byte : Byte)
deriving DecidableEq, Repr

end Sys2Proof
end

