-- ==== Sys2Proof/Decode.lean ====
section
/-! DEFINITION. The commands that a word of spec/opcode_table.json spells. The table gives no row any
bits (every row's "fields" is empty): the FD48 has no instruction words, and its requests are frames on
serial links, read by Sys2Proof/Machine/Operands.lean. So no word spells a command. -/

namespace Sys2Proof

/-- The command spelled by a word of the opcode table: none, for the table gives no row any bits. -/
def decodeTableWord (_nbits _w : Nat) : Option Instr := none

end Sys2Proof
end

