-- ==== Sys2Proof/Config.lean ====
section
/-! DEFINITION. What the FD48 fixes: capacities, sync bytes and limits that the rules name. None of
these is a free value: the spec gives every one of them, and the spec leaves no result of any
command open, so this file holds no constant without a body. -/

namespace Sys2Proof.Config

/-- Room of an intake queue, in frames (R5). -/
def intakeRoom : Nat := 8

/-- Depth at which the hold-off flag is set (R6). -/
def holdOffAt : Nat := 6

/-- Depth at which the hold-off flag is cleared (R6). -/
def resumeAt : Nat := 2

/-- Room of the outbox queue of ports 0 and 1, a notice on the line included (R15). -/
def supervisorRoom : Nat := 16

/-- Entries that one port may have in the equipment table (R20). -/
def entriesPerPort : Nat := 4

/-- Lot records (R60). -/
def lotRoom : Nat := 256

/-- Hold records (R137). -/
def holdRoom : Nat := 64

/-- Shipment records (R162). -/
def releaseRoom : Nat := 32

/-- Hold records one QLOT response carries (R69). -/
def holdsPerResponse : Nat := 8

/-- Pairs one QLOT LIST response carries (R70). -/
def lotsPerResponse : Nat := 30

/-- Where a counter of a port, an equipment age or X saturates (R17, R20, R120). -/
def saturation : Nat := 65535

/-- Where the soak elapsed saturates, in seconds (R99). -/
def soakLimit : Nat := 3600

/-- The whole, in basis points. -/
def whole : Nat := 10000

/-- First sync byte (12.1). -/
def syncFirst : Byte := 0x5A

/-- Second sync byte (12.1). -/
def syncSecond : Byte := 0xA5

/-- Start value of the CRC-16 register (R4). -/
def crcStart : BitVec 16 := 0xFFFF

/-- x^16 + x^12 + x^5 + 1, the x^16 left out (R4). -/
def crcPolynomial : BitVec 16 := 0x1021

end Sys2Proof.Config
end

