-- ==== Sys2Proof/Machine/Types.lean ====
section
/-! DEFINITION. The records the FD48 keeps, each field from the rule that names it. -/

namespace Sys2Proof.Machine

/-! ## Message links (chapter 1) -/

/-- The requests of R18, in the order of their codes (12.1). -/
inductive Req where
  | lent | lrem | lpri | lsht | qlot | hold | hclr | hovc | cdck | cund | crdk | cmod | csen | qcel | cunb
  | qeqp | stak | sarm | qres | rlse | clks | wprd | wbpl | wpar | wwin | crdy | csav | frst
  | eann | eabl | ecnf | epld | eldf | etmp | ernd | ebin
  | sens | psta
deriving DecidableEq, Repr

/-- The sense codes of R11 and 12.3. -/
inductive SenseCode where
  | none | notPermitted | field | unknownLot | duplicateLot | lotTableFull | wrongState | unknownCell
  | cellState | wrongMode | unknownEquipment | equipmentInUse | tableFull | kindMismatch | notConfigured
  | inUse | held | queueFull | holdTableFull | notOwner | noHold | noRun | wrongRun | runClosed
  | siteNotInRun | sampleCount | inconsistent | startUp | storeError
deriving DecidableEq, Repr

/-- A sense record (R11); an absent request is the blank mnemonic. -/
structure Sense where
  code : SenseCode
  arg  : BitVec 32
  req  : Option Req
deriving DecidableEq, Repr

/-- The condition of a port's frame receiver (R2). In BODY, `length` is the length byte and `got` the
bytes collected after it, the oldest first. -/
inductive Receiver where
  | hunting
  | synced
  | header
  | body (length : Nat) (got : List Byte)
deriving DecidableEq, Repr

/-- A request frame, its sync bytes, length, type and CRC taken off (1.2). -/
structure Frame where
  code    : Byte
  tag     : Byte
  source  : Id
  payload : List Byte
deriving DecidableEq, Repr

/-- How far the request in a service slot has come (R7): taken into service and not yet examined; the same, but
taken into service during a start-up load that has ended since (R184); waiting for the store (R186, R192); or answered
with the payload of its response. -/
inductive Progress where
  | taken
  | takenInLoad
  | waiting
  | answered (payload : List Byte)
deriving DecidableEq, Repr

/-- An occupied service slot (R7). `depth` is the intake depth when the request was taken into service,
which PSTA answers (R17). -/
structure Service where
  frame    : Frame
  depth    : Nat
  progress : Progress
deriving DecidableEq, Repr

/-- What a flow slot may hold (R6). -/
inductive Flow where
  | hoff
  | rsum
deriving DecidableEq, Repr

/-- What the frame on a port's line is: its end frees the service slot, nothing, or the sending place of
the outbox. `leftOver` is a frame from before a FLOOR RESET that is only completed (R19). -/
inductive LineUse where
  | response
  | flow
  | notice
  | leftOver
deriving DecidableEq, Repr

/-- The frame a transmitter is sending (R16), every character of it. -/
structure Line where
  use   : LineUse
  bytes : List Byte
deriving DecidableEq, Repr

/-! ## Equipment (chapter 2) -/

inductive EquipKind where
  | handler
  | tester
deriving DecidableEq, Repr

/-- A handler's ability record (R21). -/
structure HandlerAbility where
  families : Set16
  bandMin  : Int
  bandMax  : Int
  sites    : SiteSet
  kit      : Nat
deriving DecidableEq, Repr

/-- A tester's ability record (R21). -/
structure TesterAbility where
  sites   : SiteSet
  options : Set16
  program : Id
deriving DecidableEq, Repr

/-- The ability record of an entry; it fixes the entry's kind (R20). -/
inductive Ability where
  | handler (a : HandlerAbility)
  | tester (a : TesterAbility)
deriving DecidableEq, Repr

inductive EquipState where
  | present
  | stale
deriving DecidableEq, Repr

/-- An entry of the equipment table (R20). -/
structure Entry where
  id         : Id
  port       : Port
  state      : EquipState
  age        : Nat
  membership : Option CellNo
  ability    : Ability
deriving DecidableEq, Repr

/-! ## Cells (chapters 3 and 6) -/

inductive CellState where
  | vacant | offer | confirm | idle | preparing | running | stopping | closing | paused | lost | fault
deriving DecidableEq, Repr

inductive Mode where
  | maintenance | production | engineering
deriving DecidableEq, Repr

inductive FaultReason where
  | noSites | mismatch | timeout
deriving DecidableEq, Repr

/-- What both members of a cell can do together (R34, R40). -/
structure Capability where
  families : Set16
  bandMin  : Int
  bandMax  : Int
  kit      : Nat
  options  : Set16
  sites    : SiteSet
deriving DecidableEq, Repr

/-- A negotiation record (R38). -/
structure Negotiation where
  handlerReported : Bool
  testerReported  : Bool
  handlerAccepted : Bool
  testerAccepted  : Bool
  proposed        : Option Capability
  deadline        : Nat
deriving DecidableEq, Repr

/-- A thermal record (R34). -/
structure Thermal where
  setPoint : Option Int
  reached  : Bool
  soak     : Nat
deriving DecidableEq, Repr

inductive ProgramPart where
  | notNeeded | pending | done
deriving DecidableEq, Repr

inductive ThermalPart where
  | settling | soaking | done
deriving DecidableEq, Repr

/-- A preparation record (R91). -/
structure Preparation where
  program        : ProgramPart
  loadDeadline   : Option Nat
  thermal        : ThermalPart
  settleDeadline : Option Nat
deriving DecidableEq, Repr

inductive EndReason where
  | exhausted | stopped
deriving DecidableEq, Repr

/-- Units seen and units in PASS-class bins at one site (R120). -/
structure SiteCount where
  seen   : Nat
  passed : Nat
deriving DecidableEq, Repr

/-- A run record (R102, R120). -/
structure Run where
  number        : BitVec 16
  pass          : Nat
  expected      : Nat
  binned        : Nat
  excess        : Nat
  sites         : SiteSet
  counts        : Vector SiteCount 8
  stopFlag      : Bool
  handlerCount  : Option Nat
  endReason     : Option EndReason
  closeDeadline : Option Nat
deriving DecidableEq, Repr

/-- A cell record (R34), with the load request that R91 gives each cell. -/
structure Cell where
  state       : CellState
  mode        : Mode
  handler     : Option Id
  tester      : Option Id
  common      : Option Capability
  active      : SiteSet
  failed      : Option Id
  bound       : Option Id
  fault       : Option FaultReason
  negotiation : Option Negotiation
  thermal     : Thermal
  preparation : Option Preparation
  run         : Option Run
  loadRequest : Option Id
deriving DecidableEq, Repr

/-! ## Lots, holds and shipments (chapters 4, 5, 8 and 9) -/

inductive LotClass where
  | production | engineering
deriving DecidableEq, Repr

inductive LotState where
  | waiting | bound | tested | sampling | accepted | released
deriving DecidableEq, Repr

/-- One count for each of the 16 bins. -/
abbrev Bins := Vector Nat 16

/-- A lot record (R55). Its shipment record has its one home in the release queue (R160, R162). -/
structure Lot where
  id            : Id
  product       : Fin 32
  cls           : LotClass
  basePriority  : Nat
  sequence      : Stamp
  joinStamp     : Stamp
  state         : LotState
  cell          : Option CellNo
  pass          : Nat
  runCount      : BitVec 16
  started       : Nat
  tested        : Nat
  lost          : Nat
  rejects       : Nat
  final         : Bins
  poolNow       : Bins
  poolNext      : Bins
  sampleSize    : Option Nat
  holdCount     : Nat
  overflow      : Bool
  samplePending : Bool
deriving DecidableEq, Repr

/-- One place of the dispatch queue: the lot and its effective priority (R74). -/
structure Waiting where
  lot      : Id
  priority : Nat
deriving DecidableEq, Repr

inductive HoldKind where
  | operator | qa | yield | bin | site | reconcile | cell
deriving DecidableEq, Repr

/-- A hold record (R136). -/
structure HoldRecord where
  lot    : Id
  kind   : HoldKind
  arg    : Nat
  detail : Nat
  source : Option Port
  stamp  : Stamp
  note   : Nat
deriving DecidableEq, Repr

inductive Disposition where
  | none | accept | resample
deriving DecidableEq, Repr

inductive OfferState where
  | queued | offered
deriving DecidableEq, Repr

/-- A shipment record (R161). -/
structure Shipment where
  lot     : Id
  product : Fin 32
  stamp   : Stamp
  minute  : Nat
  started : Nat
  lost    : Nat
  passed  : Nat
  rejects : Nat
  shipped : Nat
  yield   : Nat
  grades  : List (Fin 16 × Nat)
  offer   : OfferState
deriving DecidableEq, Repr

/-! ## Notices (R13) -/

/-- The causes of an NLOT, in the order of R72. -/
inductive Cause where
  | entered | bound | unbound | tested | sampling | accepted | resample | released | withdrawn
  | holdPlaced | holdCleared | overflowSet | overflowCleared | removed | taken
deriving DecidableEq, Repr

/-- A notice in an outbox. Those of R13's first row carry the addressed equipment first; an absent lot
state in NLOT is FREED. -/
inductive Notice where
  | nabq (dest : Id) (cell : CellNo)
  | ncnf (dest : Id) (cell : CellNo) (capability : Capability)
  | nldp (dest : Id) (cell : CellNo) (program : Id)
  | nstp (dest : Id) (cell : CellNo) (setPoint : Int)
  | nstr (dest : Id) (cell : CellNo) (lot : Id) (run : BitVec 16) (pass expected : Nat) (sites : SiteSet)
      (retestBins : Option (List (Fin 16)))
  | nsto (dest : Id) (cell : CellNo) (lot : Id) (run : BitVec 16)
  | nsds (dest : Id) (cell : CellNo) (lot : Id) (run : BitVec 16) (site : Fin 8) (siteYield topYield : Nat)
      (active : SiteSet)
  | ndis (dest : Id) (cell : CellNo)
  | nlot (lot : Id) (state : Option LotState) (holdCount : Nat) (overflow : Bool) (cause : Cause)
      (hold : Option (HoldKind × Nat))
  | ncel (cell : CellNo) (state : CellState) (mode : Mode) (reason : Option FaultReason)
      (bound : Option Id)
  | natt (offered length : Nat)
  | nmrk (stamp : Stamp) (minute : Nat)
  | nsmp (lot : Id) (product : Fin 32) (size : Nat)
deriving DecidableEq, Repr

/-- A port unit (chapter 1): receiver, intake queue, service slot, sense record, hold-off flag and flow
slot, outbox, transmitter, latches and counters. The outbox is the notice on the line (the sending slot
of R14, the transmitting notice of R15) and the unsent ones, oldest first. -/
structure PortUnit where
  receiver     : Receiver
  intake       : List Frame
  service      : Option Service
  sense        : Sense
  holdOff      : Bool
  flow         : Option Flow
  sending      : Option Notice
  unsent       : List Notice
  line         : Option Line
  overrunLatch : Bool
  noticeLost   : Bool
  crcErrors    : Nat
  gapAborts    : Nat
  overruns     : Nat
deriving DecidableEq, Repr

/-! ## Configuration and clock (chapters 7, 10 and 11) -/

inductive BinClass where
  | pass | fail | retest
deriving DecidableEq, Repr

/-- What a plan says of one bin (R113). -/
structure BinRule where
  cls   : BinClass
  limit : Nat
deriving DecidableEq, Repr

/-- A bin plan (R113). -/
abbrev BinPlan := Vector BinRule 16

/-- A product entry (R182). -/
structure Product where
  defined        : Bool
  family         : Fin 16
  setPoint       : Int
  kit            : Nat
  options        : Set16
  program        : Id
  plan           : Fin 8
  yieldMin       : Nat
  guard          : Nat
  maxRetests     : Nat
  soakTime       : Nat
  samplePermille : Nat
  sampleMin      : Nat
  sampleMax      : Nat
  acceptNumber   : Nat
  siteLimit      : Nat
  siteGuard      : Nat
deriving DecidableEq, Repr

/-- The parameters (R189). -/
structure Parameters where
  aging         : Nat
  negotiation   : Nat
  load          : Nat
  settle        : Nat
  close         : Nat
  agingStep     : Nat
  attention     : Nat
  period        : Nat
  mark          : Option Nat
deriving DecidableEq, Repr

inductive WindowKind where
  | dispatch | release
deriving DecidableEq, Repr

/-- A window entry (R175). -/
structure Window where
  kind  : WindowKind
  start : Nat
  stop  : Nat
deriving DecidableEq, Repr

/-- The four tables of the configuration (R181). -/
structure Tables where
  products   : Vector Product 32
  plans      : Vector BinPlan 8
  parameters : Parameters
  windows    : Vector Window 4
deriving DecidableEq, Repr

/-- The external store (R181): whether the format marker is the one CSAV writes, whether the CRC-32 over
the contents agrees, and the tables it holds. Its layout is private to the part. -/
structure Store where
  marker  : Bool
  crcGood : Bool
  tables  : Tables
deriving DecidableEq, Repr

/-- What the configuration unit is doing with the store on behalf of a request (R186, R192). -/
inductive StoreJob where
  | reattempt | write
deriving DecidableEq, Repr

inductive ConfigState where
  | loading | configured | unconfigured
deriving DecidableEq, Repr

inductive GateState where
  | opened | closed | ungated
deriving DecidableEq, Repr

/-- The floor clock (R170 to R176). -/
structure Clock where
  seconds      : Nat
  stamp        : Stamp
  minute       : Nat
  dispatchGate : GateState
  releaseGate  : GateState
deriving DecidableEq, Repr

/-- An event that a seconds tick, or the end of FRST's response, has brought about and that has not been
taken yet. The MODEL's own record: the part takes these within the event that brings them about. -/
inductive Due where
  | negotiation (cell : CellNo)
  | load (cell : CellNo)
  | settle (cell : CellNo)
  | close (cell : CellNo)
  | soak (cell : CellNo)
  | stale (position : Position)
  | removal (position : Position)
  | minute
  | floorReset
deriving DecidableEq, Repr

end Sys2Proof.Machine
end

