-- ==== Sys2Proof/Machine/Cleared.lean ====
section
/-! DEFINITION. The value each record has after a power-on reset or when it is cleared. -/

namespace Sys2Proof.Machine

/-- A clear sense record (R11). -/
def Sense.clear : Sense := ⟨.none, 0, none⟩

/-- A port unit after a power-on reset (R19). -/
def PortUnit.reset : PortUnit where
  receiver := .hunting
  intake := []
  service := none
  sense := Sense.clear
  holdOff := false
  flow := none
  sending := none
  unsent := []
  line := none
  overrunLatch := false
  noticeLost := false
  crcErrors := 0
  gapAborts := 0
  overruns := 0

/-- A cleared thermal record (R35, R42, R100). -/
def Thermal.clear : Thermal := ⟨none, false, 0⟩

/-- A VACANT cell record (R35, R91). -/
def Cell.vacant : Cell where
  state := .vacant
  mode := .maintenance
  handler := none
  tester := none
  common := none
  active := 0
  failed := none
  bound := none
  fault := none
  negotiation := none
  thermal := Thermal.clear
  preparation := none
  run := none
  loadRequest := none

/-- No unit in any bin. -/
def Bins.zero : Bins := Vector.replicate 16 0

/-- An undefined product entry (R181, R182). -/
def Product.undefined : Product where
  defined := false
  family := 0
  setPoint := 0
  kit := 0
  options := 0
  program := 0
  plan := 0
  yieldMin := 0
  guard := 0
  maxRetests := 0
  soakTime := 0
  samplePermille := 0
  sampleMin := 0
  sampleMax := 0
  acceptNumber := 0
  siteLimit := 0
  siteGuard := 0

/-- The default parameters (R189). -/
def Parameters.default : Parameters where
  aging := 120
  negotiation := 5
  load := 600
  settle := 900
  close := 20
  agingStep := 30
  attention := 1
  period := 1439
  mark := none

/-- The cleared tables (R181). -/
def Tables.cleared : Tables where
  products := Vector.replicate 32 Product.undefined
  plans := Vector.replicate 8 (Vector.replicate 16 ⟨.fail, Config.whole⟩)
  parameters := Parameters.default
  windows := Vector.replicate 4 ⟨.dispatch, 0, 0⟩

/-- The floor clock after a power-on reset (R179). -/
def Clock.reset : Clock := ⟨0, 0, 0, .ungated, .ungated⟩

/-- A store that holds no valid set. DESIGN CHOICE (log 2), unsafe: the spec gives no contents of the
external store before the first CSAV; a new store is empty (11, example). -/
def Store.empty : Store := ⟨false, false, Tables.cleared⟩

end Sys2Proof.Machine
end

