-- ==== Sys2Proof/Machine/State.lean ====
section
/-! DEFINITION. The state of the FD48, the reasons a step can stop, and the state after a power-on
reset. INVENTORY.md lists every field with the rule that names it. -/

namespace Sys2Proof.Machine

/-- No command of the FD48 stops the part: a request it will not carry out is answered CHECK or BUSY, and
every other event has an effect. So no fault exists. -/
inductive Fault
deriving DecidableEq, Repr

/-- A command without a meaning. -/
inductive Refusal where
  /-- Raised by Dispatch.lean's arm of a command that has no meaning yet. Safe: the model stops. -/
  | notModelled (mnemonic : String)
deriving DecidableEq, Repr

/-- Everything the spec gives the part, the external store, and the model's own two lists: `due`, the
events brought about and not yet taken, and `pending`, the commands that wait, first in, first out. -/
structure State where
  /-- the port units (chapter 1) -/
  ports       : Vector PortUnit 34
  /-- the equipment table (R20) -/
  equipment   : Vector (Option Entry) 48
  /-- the cell table (R34) -/
  cells       : Vector Cell 16
  /-- the lot table, in order of entry (R60) -/
  lots        : List Lot
  /-- the entry sequence counter (R60) -/
  sequence    : Stamp
  /-- the lots of the dispatch queue with their effective priorities, in the order in which they joined;
  the order of R75 is read from it by `State.queueOrder` -/
  queue       : List Waiting
  /-- the hold list, in placement order (R137) -/
  holds       : List HoldRecord
  /-- the release queue, head first (R162) -/
  shipments   : List Shipment
  /-- the attention arm (R166) -/
  armed       : Bool
  /-- the floor clock (R170 to R176) -/
  clock       : Clock
  /-- the four tables (R181) -/
  tables      : Tables
  /-- the configuration state (R183) -/
  configState : ConfigState
  /-- what the configuration unit is doing with the store for a waiting request (R186, R192) -/
  storeJob    : Option StoreJob
  /-- the external configuration store (R181) -/
  store       : Store
  /-- the MODEL's own: events brought about and not yet taken -/
  due         : List Due
  /-- the MODEL's own: the commands that wait, first in, first out -/
  pending     : List Instr
deriving DecidableEq, Repr

/-- The part right after a power-on reset, at the start of the start-up load (R19, R22, R35, R60, R74, R137,
R162, R166, R179, R183, R184); the store's contents are log 2's. -/
def State.reset : State where
  ports := Vector.replicate 34 PortUnit.reset
  equipment := Vector.replicate 48 none
  cells := Vector.replicate 16 Cell.vacant
  lots := []
  sequence := 1
  queue := []
  holds := []
  shipments := []
  armed := true
  clock := Clock.reset
  tables := Tables.cleared
  configState := .loading
  storeJob := none
  store := Store.empty
  due := []
  pending := []

end Sys2Proof.Machine
end

