-- ==== Sys2Proof/Machine/Flags.lean ====
section
/-! DEFINITION. The flags, latches, counters and sense record of a port unit, and the ratios by which the
result engine judges a lot. -/

namespace Sys2Proof.Machine

/-- A counter that saturates at 65535 advances by one (R17). -/
def bump (n : Nat) : Nat := min Config.saturation (n + 1)

/-- A frame was dropped as unusable (R2, R4, R17). -/
def PortUnit.countCrcError (u : PortUnit) : PortUnit := { u with crcErrors := bump u.crcErrors }

/-- A frame was aborted by a character gap (R3, R17). -/
def PortUnit.countGapAbort (u : PortUnit) : PortUnit := { u with gapAborts := bump u.gapAborts }

/-- A frame was discarded at a full intake queue (R5, R17). -/
def PortUnit.countOverrun (u : PortUnit) : PortUnit :=
  { u with overruns := bump u.overruns, overrunLatch := true }

/-- The latches are cleared and the counters set to 0 (R17). -/
def PortUnit.clearStatus (u : PortUnit) : PortUnit :=
  { u with overrunLatch := false, noticeLost := false, crcErrors := 0, gapAborts := 0, overruns := 0 }

/-- Depth 6 reached by a join (R6): the flag is set, and HOFF is placed unless an unsent RSUM is there to
be removed. -/
def PortUnit.setHoldOff (u : PortUnit) : PortUnit :=
  { u with holdOff := true, flow := if u.flow = some .rsum then none else some .hoff }

/-- Depth 2 reached by a frame's leaving (R6): the flag is cleared, and RSUM is placed unless an unsent
HOFF is there to be removed. -/
def PortUnit.clearHoldOff (u : PortUnit) : PortUnit :=
  { u with holdOff := false, flow := if u.flow = some .hoff then none else some .rsum }

/-! ## Ratios in basis points (7.5) -/

/-- `a` in `b` in basis points, rounded down (R125, R127, R161). -/
def shareDown (a b : Nat) : Nat := Config.whole * a / b

/-- `a` in `b` in basis points, rounded up (R126). -/
def shareUp (a b : Nat) : Nat := (Config.whole * a + b - 1) / b

/-- The sum over the 16 bins. -/
def Bins.total (v : Bins) : Nat := v.toList.sum

/-- Every bin is 0. -/
def Bins.isZero (v : Bins) : Bool := v.toList.all (· == 0)

/-- Bin by bin sum. -/
def Bins.add (v w : Bins) : Bins := Vector.ofFn fun b => v[b] + w[b]

/-- One more unit in bin `b`. -/
def Bins.inc (v : Bins) (b : Fin 16) : Bins := v.set b (v[b] + 1)

/-- One unit fewer in bin `b`. -/
def Bins.dec (v : Bins) (b : Fin 16) : Bins := v.set b (v[b] - 1)

/-- The bins of a class, in bin order. -/
def BinPlan.binsOf (p : BinPlan) (c : BinClass) : List (Fin 16) :=
  (List.finRange 16).filter fun b => p[b].cls = c

/-- The plan has a PASS-class bin (R182). -/
def BinPlan.hasPass (p : BinPlan) : Bool := !(p.binsOf .pass).isEmpty

/-- Fpass: the units in PASS-class bins of F (R114). -/
def Lot.passed (l : Lot) (p : BinPlan) : Nat := ((p.binsOf .pass).map fun b => l.final[b]).sum

/-- Fall: the units in all bins of F (R114). -/
def Lot.finalTotal (l : Lot) : Nat := l.final.total

/-- RY, where it is defined (R125). -/
def Lot.resolvedYield (l : Lot) (p : BinPlan) : Option Nat :=
  if l.finalTotal = 0 then none else some (shareDown (l.passed p) l.finalTotal)

/-- Qb, where it is defined (R126). -/
def Lot.binRatio (l : Lot) (b : Fin 16) : Option Nat :=
  if l.tested = 0 then none else some (shareUp l.final[b] l.tested)

/-- The lot is unheld (R57). -/
def Lot.unheld (l : Lot) : Bool := l.holdCount = 0 && !l.overflow

/-- Work is left for the lot's present pass (R102): units of pass 0 still expected, or a pool to draw. -/
def Lot.hasWork (l : Lot) : Bool :=
  if l.pass = 0 then l.tested + l.lost < l.started else !l.poolNow.isZero

/-- The expected count of a run that opens now (R102). -/
def Lot.expected (l : Lot) : Nat :=
  if l.pass = 0 then l.started - l.tested - l.lost else l.poolNow.total

/-- The sample size n of R154. -/
def sampleSize (p : Product) (passed : Nat) : Nat :=
  let raw := (passed * p.samplePermille + 999) / 1000
  min (min (max raw p.sampleMin) p.sampleMax) passed

end Sys2Proof.Machine
end

