-- ==== Sys2Proof/Machine/Formats.lean ====
section
/-! DEFINITION. The byte layouts of chapter 12: the CRC-16 of a frame, the encodings of field values, and
the frames the part writes. A layout the chapter does not give is built from R195 in the field order of
the request's or notice's entry. -/

namespace Sys2Proof.Machine

/-! ## CRC-16 (R4) -/

/-- One bit time of the CRC register. -/
def crcBit (c : BitVec 16) : BitVec 16 :=
  if c.msb then (c <<< 1) ^^^ Config.crcPolynomial else c <<< 1

/-- One byte fed most significant bit first. -/
def crcByte (c : BitVec 16) (b : Byte) : BitVec 16 :=
  Nat.repeat crcBit 8 (c ^^^ (b.setWidth 16 <<< 8))

/-- The CRC-16 over bytes in the order received. -/
def crc16 (bytes : List Byte) : BitVec 16 := bytes.foldl crcByte Config.crcStart

/-! ## Field values (R195) -/

/-- A whole number in `k` bytes, most significant first. -/
def be : Nat → Nat → List Byte
  | 0, _ => []
  | k + 1, n => BitVec.ofNat 8 (n >>> (8 * k)) :: be k n

/-- A 32-bit number. -/
def be32 (v : BitVec 32) : List Byte := be 4 v.toNat

/-- The whole number that bytes carry, most significant first. -/
def ofBe (bytes : List Byte) : Nat := bytes.foldl (fun n b => n * 256 + b.toNat) 0

/-- A temperature: 16-bit two's complement (R195). DESIGN CHOICE (log 35): its high byte stands first. -/
def temperature (t : Int) : List Byte := be 2 (BitVec.ofInt 16 t).toNat

/-- A flag. -/
def flag (b : Bool) : List Byte := [if b then 1 else 0]

/-- An optional field of `size` bytes in a response or notice: its presence byte and its bytes, all 00h
when it is absent. -/
def optional (size : Nat) : Option (List Byte) → List Byte
  | none => 0 :: List.replicate size 0
  | some bytes => 1 :: bytes

/-! ## Enumerated values (12.3) -/

def EquipKind.byte : EquipKind → Byte
  | .handler => 1 | .tester => 2

def EquipState.byte : EquipState → Byte
  | .present => 1 | .stale => 2

def LotClass.byte : LotClass → Byte
  | .production => 1 | .engineering => 2

def Mode.byte : Mode → Byte
  | .maintenance => 0 | .production => 1 | .engineering => 2

def CellState.byte : CellState → Byte
  | .vacant => 0x00 | .offer => 0x01 | .confirm => 0x02 | .idle => 0x03 | .preparing => 0x04
  | .running => 0x05 | .stopping => 0x06 | .closing => 0x07 | .paused => 0x08 | .lost => 0x09
  | .fault => 0x0A

def FaultReason.byte : FaultReason → Byte
  | .noSites => 1 | .mismatch => 2 | .timeout => 3

def LotState.byte : LotState → Byte
  | .waiting => 1 | .bound => 2 | .tested => 3 | .sampling => 4 | .accepted => 5 | .released => 6

/-- The lot state of an NLOT; absent is FREED. -/
def lotStateByte : Option LotState → Byte
  | some s => s.byte
  | none => 7

def HoldKind.byte : HoldKind → Byte
  | .operator => 1 | .qa => 2 | .yield => 3 | .bin => 4 | .site => 5 | .reconcile => 6 | .cell => 7

def OfferState.byte : OfferState → Byte
  | .queued => 1 | .offered => 2

def GateState.byte : GateState → Byte
  | .opened => 1 | .closed => 2 | .ungated => 3

def ProgramPart.byte : ProgramPart → Byte
  | .notNeeded => 1 | .pending => 2 | .done => 3

def ThermalPart.byte : ThermalPart → Byte
  | .settling => 1 | .soaking => 2 | .done => 3

def ConfigState.byte : ConfigState → Byte
  | .loading => 1 | .configured => 2 | .unconfigured => 3

/-- The NLOT causes are numbered in the order of R72. -/
def Cause.byte : Cause → Byte
  | .entered => 0x01 | .bound => 0x02 | .unbound => 0x03 | .tested => 0x04 | .sampling => 0x05
  | .accepted => 0x06 | .resample => 0x07 | .released => 0x08 | .withdrawn => 0x09
  | .holdPlaced => 0x0A | .holdCleared => 0x0B | .overflowSet => 0x0C | .overflowCleared => 0x0D
  | .removed => 0x0E | .taken => 0x0F

def SenseCode.byte : SenseCode → Byte
  | .none => 0x00 | .notPermitted => 0x01 | .field => 0x02 | .unknownLot => 0x03 | .duplicateLot => 0x04
  | .lotTableFull => 0x05 | .wrongState => 0x06 | .unknownCell => 0x07 | .cellState => 0x08
  | .wrongMode => 0x09 | .unknownEquipment => 0x0A | .equipmentInUse => 0x0B | .tableFull => 0x0C
  | .kindMismatch => 0x0D | .notConfigured => 0x0E | .inUse => 0x0F | .held => 0x10 | .queueFull => 0x11
  | .holdTableFull => 0x12 | .notOwner => 0x13 | .noHold => 0x14 | .noRun => 0x15 | .wrongRun => 0x16
  | .runClosed => 0x17 | .siteNotInRun => 0x18 | .sampleCount => 0x19 | .inconsistent => 0x1A
  | .startUp => 0x1B | .storeError => 0x1C

/-- The requests of R18 in the order of their codes, from 01h (12.1). -/
def allRequests : List Req :=
  [.lent, .lrem, .lpri, .lsht, .qlot, .hold, .hclr, .hovc, .cdck, .cund, .crdk, .cmod, .csen, .qcel, .cunb,
   .qeqp, .stak, .sarm, .qres, .rlse, .clks, .wprd, .wbpl, .wpar, .wwin, .crdy, .csav, .frst,
   .eann, .eabl, .ecnf, .epld, .eldf, .etmp, .ernd, .ebin, .sens, .psta]

/-- The request whose code a byte is, if it is one (R8 step 2, 12.1). -/
def Req.ofCode (code : Byte) : Option Req :=
  if code = 0 then none else allRequests[code.toNat - 1]?

/-- Four upper-case characters. -/
def letters (a b c d : Char) : List Byte := [a, b, c, d].map fun x => BitVec.ofNat 8 x.toNat

/-- The mnemonic of a request; a blank mnemonic is four bytes of 20h. -/
def mnemonicBytes : Option Req → List Byte
  | none => letters ' ' ' ' ' ' ' '
  | some .lent => letters 'L' 'E' 'N' 'T'
  | some .lrem => letters 'L' 'R' 'E' 'M'
  | some .lpri => letters 'L' 'P' 'R' 'I'
  | some .lsht => letters 'L' 'S' 'H' 'T'
  | some .qlot => letters 'Q' 'L' 'O' 'T'
  | some .hold => letters 'H' 'O' 'L' 'D'
  | some .hclr => letters 'H' 'C' 'L' 'R'
  | some .hovc => letters 'H' 'O' 'V' 'C'
  | some .cdck => letters 'C' 'D' 'C' 'K'
  | some .cund => letters 'C' 'U' 'N' 'D'
  | some .crdk => letters 'C' 'R' 'D' 'K'
  | some .cmod => letters 'C' 'M' 'O' 'D'
  | some .csen => letters 'C' 'S' 'E' 'N'
  | some .qcel => letters 'Q' 'C' 'E' 'L'
  | some .cunb => letters 'C' 'U' 'N' 'B'
  | some .qeqp => letters 'Q' 'E' 'Q' 'P'
  | some .stak => letters 'S' 'T' 'A' 'K'
  | some .sarm => letters 'S' 'A' 'R' 'M'
  | some .qres => letters 'Q' 'R' 'E' 'S'
  | some .rlse => letters 'R' 'L' 'S' 'E'
  | some .clks => letters 'C' 'L' 'K' 'S'
  | some .wprd => letters 'W' 'P' 'R' 'D'
  | some .wbpl => letters 'W' 'B' 'P' 'L'
  | some .wpar => letters 'W' 'P' 'A' 'R'
  | some .wwin => letters 'W' 'W' 'I' 'N'
  | some .crdy => letters 'C' 'R' 'D' 'Y'
  | some .csav => letters 'C' 'S' 'A' 'V'
  | some .frst => letters 'F' 'R' 'S' 'T'
  | some .eann => letters 'E' 'A' 'N' 'N'
  | some .eabl => letters 'E' 'A' 'B' 'L'
  | some .ecnf => letters 'E' 'C' 'N' 'F'
  | some .epld => letters 'E' 'P' 'L' 'D'
  | some .eldf => letters 'E' 'L' 'D' 'F'
  | some .etmp => letters 'E' 'T' 'M' 'P'
  | some .ernd => letters 'E' 'R' 'N' 'D'
  | some .ebin => letters 'E' 'B' 'I' 'N'
  | some .sens => letters 'S' 'E' 'N' 'S'
  | some .psta => letters 'P' 'S' 'T' 'A'

/-! ## Records -/

def Ability.kind : Ability → EquipKind
  | .handler _ => .handler
  | .tester _ => .tester

/-- An ability record (12.4). DESIGN CHOICE (log 35): the high byte of a family or option set, the one of
members 8 to 15, stands first. -/
def Ability.bytes : Ability → List Byte
  | .handler a =>
    be 2 a.families.toNat ++ temperature a.bandMin ++ temperature a.bandMax ++ [a.sites] ++ be 2 a.kit
  | .tester a => [a.sites] ++ be 2 a.options.toNat ++ be32 a.program

/-- A capability, as ECNF echoes it and NCNF carries it (12.4). DESIGN CHOICE (log 35): the byte order of the sets
and temperatures. -/
def Capability.bytes (c : Capability) : List Byte :=
  be 2 c.families.toNat ++ temperature c.bandMin ++ temperature c.bandMax ++ be 2 c.kit
    ++ be 2 c.options.toNat ++ [c.sites]

/-- A cell number, or a port number, in one byte. -/
def num1 {n : Nat} (c : Fin n) : List Byte := be 1 c.val

/-- The response data of QEQP (R32). -/
def Entry.bytes (i : Position) (e : Entry) : List Byte :=
  num1 i ++ be32 e.id ++ [e.ability.kind.byte] ++ num1 e.port ++ [e.state.byte] ++ be 2 e.age
    ++ optional 1 (e.membership.map num1) ++ e.ability.bytes

/-- The summary of a preparation record (R54). -/
def Preparation.bytes (p : Preparation) : List Byte :=
  [p.program.byte] ++ optional 2 (p.loadDeadline.map (be 2)) ++ [p.thermal.byte]
    ++ optional 2 (p.settleDeadline.map (be 2))

/-- The summary of a run record (R54). -/
def Run.bytes (r : Run) : List Byte :=
  be 2 r.number.toNat ++ be 1 r.pass ++ be 2 r.expected ++ be 2 r.binned ++ be 2 r.excess ++ [r.sites]

/-- A thermal record (R54). -/
def Thermal.bytes (t : Thermal) : List Byte :=
  optional 2 (t.setPoint.map temperature) ++ flag t.reached ++ be 2 t.soak

/-- The response data of QCEL (R54). -/
def Cell.bytes (c : Cell) : List Byte :=
  [c.state.byte, c.mode.byte] ++ optional 4 (c.handler.map be32) ++ optional 4 (c.tester.map be32)
    ++ optional 11 (c.common.map Capability.bytes) ++ [c.active] ++ optional 4 (c.failed.map be32)
    ++ optional 4 (c.bound.map be32) ++ optional 1 (c.fault.map fun r => [r.byte]) ++ c.thermal.bytes
    ++ optional 1 (c.negotiation.map fun n => be 1 n.deadline)
    ++ optional 8 (c.preparation.map Preparation.bytes) ++ optional 10 (c.run.map Run.bytes)

/-- A hold record (12.6): kind, argument, detail, source port, minute stamp, note code. -/
def HoldRecord.bytes (h : HoldRecord) : List Byte :=
  [h.kind.byte] ++ be 2 h.arg ++ be 2 h.detail ++ optional 1 (h.source.map num1) ++ be32 h.stamp
    ++ be 2 h.note

/-- A shipment record (12.6). -/
def Shipment.bytes (s : Shipment) : List Byte :=
  be32 s.lot ++ num1 s.product ++ be32 s.stamp ++ be 2 s.minute ++ be 2 s.started ++ be 2 s.lost
    ++ be 2 s.passed ++ be 2 s.rejects ++ be 2 s.shipped ++ be 2 s.yield ++ [s.offer.byte]
    ++ be 1 s.grades.length ++ s.grades.flatMap fun g => num1 g.1 ++ be 2 g.2

/-- The flags byte of QLOT SUMMARY (12.6): bit 0 overflow, bit 1 sample-pending. -/
def Lot.flagByte (l : Lot) : Byte :=
  (if l.overflow then 1 else 0) ||| (if l.samplePending then 2 else 0)

/-- The response data of QLOT view SUMMARY (12.6). The effective priority comes from the dispatch queue,
the shipment record from the release queue; its bytes follow only when it is present (R195). -/
def Lot.summary (l : Lot) (priority : Option Nat) (shipment : Option Shipment) : List Byte :=
  be32 l.id ++ num1 l.product ++ [l.cls.byte] ++ be 1 l.basePriority ++ optional 1 (priority.map (be 1))
    ++ be32 l.sequence ++ be32 l.joinStamp ++ [l.state.byte] ++ optional 1 (l.cell.map num1)
    ++ be 1 l.pass ++ be 2 l.runCount.toNat ++ be 2 l.started ++ be 2 l.tested ++ be 2 l.lost
    ++ be 2 l.rejects ++ be 1 l.holdCount ++ [l.flagByte] ++ optional 2 (l.sampleSize.map (be 2))
    ++ optional 0 (shipment.map Shipment.bytes)

/-- 16 quantities of 2 bytes in bin order. -/
def Bins.bytes (v : Bins) : List Byte := v.toList.flatMap (be 2)

/-- The response data of QLOT view COUNTS (12.6). -/
def Lot.counts (l : Lot) : List Byte :=
  be 2 l.started ++ be 2 l.tested ++ be 2 l.lost ++ be 2 l.rejects ++ l.final.bytes ++ l.poolNow.bytes
    ++ l.poolNext.bytes

/-- The sense record as SENS returns it (R195). -/
def Sense.bytes (s : Sense) : List Byte := [s.code.byte] ++ be32 s.arg ++ mnemonicBytes s.req

/-- The latch byte of PSTA (R195): bit 0 overrun, bit 1 notice-lost, bit 2 hold-off. -/
def PortUnit.latchByte (u : PortUnit) : Byte :=
  (if u.overrunLatch then 1 else 0) ||| (if u.noticeLost then 2 else 0) ||| (if u.holdOff then 4 else 0)

/-- The response data of PSTA (R17, R195), with the intake depth when it was taken into service. -/
def PortUnit.status (u : PortUnit) (depth : Nat) : List Byte :=
  be 1 depth ++ [u.latchByte] ++ be 2 u.crcErrors ++ be 2 u.gapAborts ++ be 2 u.overruns

/-! ## Notices (R13, 12.1) -/

/-- A notice's code, source id and payload. -/
def Notice.code : Notice → Byte
  | .nabq .. => 0x40 | .ncnf .. => 0x41 | .nldp .. => 0x42 | .nstp .. => 0x43 | .nstr .. => 0x44
  | .nsto .. => 0x45 | .nsds .. => 0x46 | .ndis .. => 0x47 | .nlot .. => 0x48 | .ncel .. => 0x49
  | .natt .. => 0x4A | .nmrk .. => 0x4B | .nsmp .. => 0x4C

/-- The object of a notice (R13): the addressed equipment, the lot, the cell, or nothing. -/
def Notice.object : Notice → Option Nat
  | .nabq d .. | .ncnf d .. | .nldp d .. | .nstp d .. | .nstr d .. | .nsto d .. | .nsds d .. | .ndis d .. =>
    some d.toNat
  | .nlot lot .. => some lot.toNat
  | .ncel cell .. => some cell.val
  | .natt .. => none
  | .nmrk .. => none
  | .nsmp lot .. => some lot.toNat

/-- Kind and object: the notice's key for coalescing (R13). -/
def Notice.key (n : Notice) : Byte × Option Nat := (n.code, n.object)

/-- The source id of a notice's frame (R13): the addressed equipment's id, else 0. -/
def Notice.source : Notice → Id
  | .nabq d .. | .ncnf d .. | .nldp d .. | .nstp d .. | .nstr d .. | .nsto d .. | .nsds d .. | .ndis d .. => d
  | .nlot .. | .ncel .. | .natt .. | .nmrk .. | .nsmp .. => 0

/-- A notice's payload, its fields in the order its entry lists them. DESIGN CHOICE (log 7): the RETEST
bin list of NSTR has a presence byte and, absent, a count of 0; the hold of NLOT is one optional field. -/
def Notice.payload : Notice → List Byte
  | .nabq _ cell => num1 cell
  | .ncnf _ cell cap => num1 cell ++ cap.bytes
  | .nldp _ cell program => num1 cell ++ be32 program
  | .nstp _ cell t => num1 cell ++ temperature t
  | .nstr _ cell lot run pass expected sites bins =>
    num1 cell ++ be32 lot ++ be 2 run.toNat ++ be 1 pass ++ be 2 expected ++ [sites]
      ++ optional 1 (bins.map fun bs => be 1 bs.length ++ bs.flatMap num1)
  | .nsto _ cell lot run => num1 cell ++ be32 lot ++ be 2 run.toNat
  | .nsds _ cell lot run site y top active =>
    num1 cell ++ be32 lot ++ be 2 run.toNat ++ num1 site ++ be 2 y ++ be 2 top ++ [active]
  | .ndis _ cell => num1 cell
  | .nlot lot state count overflow cause hold =>
    be32 lot ++ [lotStateByte state] ++ be 1 count ++ flag overflow ++ [cause.byte]
      ++ optional 3 (hold.map fun h => [h.1.byte] ++ be 2 h.2)
  | .ncel cell state mode reason bound =>
    num1 cell ++ [state.byte, mode.byte] ++ optional 1 (reason.map fun r => [r.byte])
      ++ optional 4 (bound.map be32)
  | .natt offered length => be 1 offered ++ be 1 length
  | .nmrk stamp minute => be32 stamp ++ be 2 minute
  | .nsmp lot product size => be32 lot ++ num1 product ++ be 2 size

/-! ## Frames (12.1) -/

/-- The type byte of a REQUEST, a RESPONSE and a NOTICE. -/
def requestType : Byte := 1
def responseType : Byte := 2
def noticeType : Byte := 3

/-- A frame whole: sync bytes, length, type, code, tag, source id, payload and CRC (12.1, R4). -/
def frameBytes (type code tag : Byte) (source : Id) (payload : List Byte) : List Byte :=
  let guarded := BitVec.ofNat 8 (6 + payload.length) :: type :: code :: tag :: (be32 source ++ payload)
  [Config.syncFirst, Config.syncSecond] ++ guarded ++ be 2 (crc16 guarded).toNat

/-- The response to a request: its code, tag and source id unchanged (R10). -/
def responseBytes (f : Frame) (payload : List Byte) : List Byte :=
  frameBytes responseType f.code f.tag f.source payload

/-- A notice frame, with a tag of 0 (R13). -/
def Notice.bytes (n : Notice) : List Byte := frameBytes noticeType n.code 0 n.source n.payload

/-- HOFF or RSUM: no payload, tag 0, source id 0 (R6). -/
def Flow.bytes : Flow → List Byte
  | .hoff => frameBytes noticeType 0x4D 0 0 []
  | .rsum => frameBytes noticeType 0x4E 0 0 []

end Sys2Proof.Machine
end

