-- ==== Sys2Proof/Machine/Operands.lean ====
section
/-! DEFINITION. Reading a request's payload: the field checks of R9 in byte order, with the encodings of
R195 and R196. A refusal carries the offset within the frame of the lowest offending field; the first
payload byte is at offset 8 (1.2). -/

namespace Sys2Proof.Machine

/-- A place in a payload: the frame offset of the next byte, and the bytes from there on. -/
structure Cursor where
  offset : Nat
  rest   : List Byte
deriving DecidableEq, Repr

/-- What a field check gives: a value, or the offset that the FIELD refusal names. -/
abbrev Checked (α : Type) := Except Nat α

/-- The payload's first byte. -/
def Cursor.start (payload : List Byte) : Cursor := ⟨8, payload⟩

/-- `size` bytes as they stand; a field that the payload ends before is refused with its offset. -/
def Cursor.bytes (c : Cursor) (size : Nat) : Checked (List Byte × Cursor) :=
  if c.rest.length < size then .error c.offset
  else .ok (c.rest.take size, ⟨c.offset + size, c.rest.drop size⟩)

/-- A whole number of `size` bytes from `lo` to `hi`. -/
def Cursor.num (c : Cursor) (size lo hi : Nat) : Checked (Nat × Cursor) := do
  let (bs, c') ← c.bytes size
  if lo ≤ ofBe bs ∧ ofBe bs ≤ hi then .ok (ofBe bs, c') else .error c.offset

/-- A one-byte number below `n`. -/
def Cursor.below (c : Cursor) (n : Nat) : Checked (Fin n × Cursor) := do
  let (bs, c') ← c.bytes 1
  if h : ofBe bs < n then .ok (⟨ofBe bs, h⟩, c') else .error c.offset

/-- A 32-bit number of at least `lo`. -/
def Cursor.id (c : Cursor) (lo : Nat) : Checked (Id × Cursor) := do
  let (v, c') ← c.num 4 lo (2 ^ 32 - 1)
  .ok (BitVec.ofNat 32 v, c')

/-- A site set: every value of its byte is in range. -/
def Cursor.sites (c : Cursor) : Checked (SiteSet × Cursor) := do
  let (v, c') ← c.num 1 0 255
  .ok (BitVec.ofNat 8 v, c')

/-- A family or option set. DESIGN CHOICE (log 35): the high byte, of members 8 to 15, stands first. -/
def Cursor.set16 (c : Cursor) : Checked (Set16 × Cursor) := do
  let (v, c') ← c.num 2 0 65535
  .ok (BitVec.ofNat 16 v, c')

/-- A temperature from `lo` to `hi`, in 16-bit two's complement. DESIGN CHOICE (log 35): its high byte stands
first. -/
def Cursor.temp (c : Cursor) (lo hi : Int) : Checked (Int × Cursor) := do
  let (v, c') ← c.num 2 0 65535
  let t := (BitVec.ofNat 16 v).toInt
  if lo ≤ t ∧ t ≤ hi then .ok (t, c') else .error c.offset

/-- One of a fixed set of values. -/
def Cursor.pick {α : Type} (c : Cursor) (read : Byte → Option α) : Checked (α × Cursor) := do
  let (v, c') ← c.num 1 0 255
  match read (BitVec.ofNat 8 v) with
  | some a => .ok (a, c')
  | none => .error c.offset

/-- A flag or presence byte. -/
def Cursor.flag (c : Cursor) : Checked (Bool × Cursor) :=
  c.pick fun b => if b = 0 then some false else if b = 1 then some true else none

/-- An optional field: it follows its presence byte only when that byte is 01h (R195). -/
def Cursor.opt {α : Type} (c : Cursor) (read : Cursor → Checked (α × Cursor)) :
    Checked (Option α × Cursor) := do
  let (here, c') ← c.flag
  if here then
    let (a, c'') ← read c'
    .ok (some a, c'')
  else .ok (none, c')

/-- `n` values one after another. -/
def Cursor.many {α : Type} (read : Cursor → Checked (α × Cursor)) : Nat → Cursor → Checked (List α × Cursor)
  | 0, c => .ok ([], c)
  | n + 1, c => do
    let (a, c') ← read c
    let (as, c'') ← Cursor.many read n c'
    .ok (a :: as, c'')

/-- The payload ends here: a byte beyond the format is refused with its offset. -/
def Cursor.finish {α : Type} (c : Cursor) (a : α) : Checked α :=
  if c.rest.isEmpty then .ok a else .error c.offset

/-! ## Enumerated values (12.3) -/

def readKind (b : Byte) : Option EquipKind :=
  if b = 1 then some .handler else if b = 2 then some .tester else none

def readClass (b : Byte) : Option LotClass :=
  if b = 1 then some .production else if b = 2 then some .engineering else none

def readMode (b : Byte) : Option Mode :=
  if b = 0 then some .maintenance else if b = 1 then some .production
  else if b = 2 then some .engineering else none

def readBinClass (b : Byte) : Option BinClass :=
  if b = 1 then some .pass else if b = 2 then some .fail else if b = 3 then some .retest else none

def readHoldKind (b : Byte) : Option HoldKind :=
  if b = 1 then some .operator else if b = 2 then some .qa else if b = 3 then some .yield
  else if b = 4 then some .bin else if b = 5 then some .site else if b = 6 then some .reconcile
  else if b = 7 then some .cell else none

def readDisposition (b : Byte) : Option Disposition :=
  if b = 0 then some .none else if b = 1 then some .accept else if b = 2 then some .resample else none

def readEndReason (b : Byte) : Option EndReason :=
  if b = 1 then some .exhausted else if b = 2 then some .stopped else none

def readWindowKind (b : Byte) : Option WindowKind :=
  if b = 1 then some .dispatch else if b = 2 then some .release else none

/-! ## Payloads of the requests -/

/-- No payload (R12, R17, R164, R167, R191, R192, R194). -/
def readEmpty (payload : List Byte) : Checked Unit := (Cursor.start payload).finish ()

/-- A lot id alone (R65, R67, R142, R160). DEDUCED (log 9): a lot id is 1 to 4,294,967,295 (R55) in every
request. -/
def readLotId (payload : List Byte) : Checked Id := do
  let (lot, c) ← (Cursor.start payload).id 1
  c.finish lot

/-- A cell number alone (R52, R53, R54, R87). -/
def readCell (payload : List Byte) : Checked CellNo := do
  let (cell, c) ← (Cursor.start payload).below 16
  c.finish cell

/-- The restore part of a LENT (4.4). -/
structure Restore where
  pass   : Nat
  tested : Nat
  lost   : Nat
  final  : Bins
  pool   : Bins
deriving DecidableEq, Repr

/-- The payload of LENT (4.4). -/
structure LentFields where
  lot          : Id
  product      : Fin 32
  cls          : LotClass
  basePriority : Nat
  started      : Nat
  restore      : Option Restore
deriving DecidableEq, Repr

/-- 16 quantities of 2 bytes, in bin order. -/
def Cursor.bins (c : Cursor) : Checked (Bins × Cursor) := do
  let (ns, c') ← Cursor.many (fun c => c.num 2 0 65535) 16 c
  .ok (Vector.ofFn fun b => ns.getD b.val 0, c')

def Cursor.restore (c : Cursor) : Checked (Restore × Cursor) := do
  let (pass, c) ← c.num 1 0 3
  let (tested, c) ← c.num 2 0 65535
  let (lost, c) ← c.num 2 0 65535
  let (final, c) ← c.bins
  let (pool, c) ← c.bins
  .ok (⟨pass, tested, lost, final, pool⟩, c)

def readLent (payload : List Byte) : Checked LentFields := do
  let (lot, c) ← (Cursor.start payload).id 1
  let (product, c) ← c.below 32
  let (cls, c) ← c.pick readClass
  let (base, c) ← c.num 1 0 7
  let (started, c) ← c.num 2 1 65535
  let (restore, c) ← c.opt Cursor.restore
  c.finish ⟨lot, product, cls, base, started, restore⟩

/-- LPRI: lot id and base priority (R66). -/
def readLpri (payload : List Byte) : Checked (Id × Nat) := do
  let (lot, c) ← (Cursor.start payload).id 1
  let (base, c) ← c.num 1 0 7
  c.finish (lot, base)

/-- The views of QLOT (R68 to R70). -/
inductive View where
  | summary | counts | holds | list
deriving DecidableEq, Repr

def readView (b : Byte) : Option View :=
  if b = 1 then some .summary else if b = 2 then some .counts else if b = 3 then some .holds
  else if b = 4 then some .list else none

/-- The view a QLOT payload asks for; a payload whose view byte is missing or names no view counts with
SUMMARY, whose field checks refuse it. -/
def viewOf (payload : List Byte) : View := ((payload.head?).bind readView).getD .summary

/-- QLOT in view SUMMARY or COUNTS: view and lot id (R68). -/
def readQlotLot (payload : List Byte) : Checked Id := do
  let (_, c) ← (Cursor.start payload).pick readView
  let (lot, c) ← c.id 1
  c.finish lot

/-- QLOT in view HOLDS: view, lot id and start index (R69). -/
def readQlotHolds (payload : List Byte) : Checked (Id × Nat) := do
  let (_, c) ← (Cursor.start payload).pick readView
  let (lot, c) ← c.id 1
  let (start, c) ← c.num 1 0 63
  c.finish (lot, start)

/-- QLOT in view LIST: view and start sequence (R70). -/
def readQlotList (payload : List Byte) : Checked Stamp := do
  let (_, c) ← (Cursor.start payload).pick readView
  let (start, c) ← c.id 1
  c.finish start

/-- HOLD: lot id and note code (R141). -/
def readHold (payload : List Byte) : Checked (Id × Nat) := do
  let (lot, c) ← (Cursor.start payload).id 1
  let (note, c) ← c.num 2 0 65535
  c.finish (lot, note)

/-- The payload of HCLR (R145). -/
structure HclrFields where
  lot         : Id
  kind        : HoldKind
  arg         : Nat
  disposition : Disposition
deriving DecidableEq, Repr

/-- The arguments that HCLR accepts for a kind (R145): the least and the greatest. -/
def HoldKind.argRange : HoldKind → Nat × Nat
  | .operator => (0, 65535)
  | .qa | .yield => (0, 0)
  | .bin | .site | .cell => (0, 15)
  | .reconcile => (1, 4)

def readHclr (payload : List Byte) : Checked HclrFields := do
  let (lot, c) ← (Cursor.start payload).id 1
  let (kind, c) ← c.pick readHoldKind
  let (arg, c) ← c.num 2 kind.argRange.1 kind.argRange.2
  let (disposition, c) ← c.pick fun b => (readDisposition b).filter fun d => d = .none || kind = .qa
  c.finish ⟨lot, kind, arg, disposition⟩

/-- CDCK: cell, handler id and tester id (R37). -/
def readCdck (payload : List Byte) : Checked (CellNo × Id × Id) := do
  let (cell, c) ← (Cursor.start payload).below 16
  let (handler, c) ← c.id 1
  let (tester, c) ← c.id 1
  c.finish (cell, handler, tester)

/-- CMOD: cell and mode (R45). -/
def readCmod (payload : List Byte) : Checked (CellNo × Mode) := do
  let (cell, c) ← (Cursor.start payload).below 16
  let (mode, c) ← c.pick readMode
  c.finish (cell, mode)

/-- CSEN: cell and site (R47). -/
def readCsen (payload : List Byte) : Checked (CellNo × Fin 8) := do
  let (cell, c) ← (Cursor.start payload).below 16
  let (site, c) ← c.below 8
  c.finish (cell, site)

/-- QEQP: an equipment id, 0 for the list (2.7). -/
def readQeqp (payload : List Byte) : Checked Id := do
  let (eq, c) ← (Cursor.start payload).id 0
  c.finish eq

/-- A QEQP payload asks for the list when its id is whole and 0 (R33). -/
def asksForList (payload : List Byte) : Bool :=
  4 ≤ payload.length && (payload.take 4).all (· = 0)

/-- QRES: lot id, inspected m and rejected r, r at most m (R156). -/
def readQres (payload : List Byte) : Checked (Id × Nat × Nat) := do
  let (lot, c) ← (Cursor.start payload).id 1
  let (m, c) ← c.num 2 1 2000
  let (r, c) ← c.num 2 0 (min 2000 m)
  c.finish (lot, m, r)

/-- CLKS: an optional period minute (R174). -/
def readClks (payload : List Byte) : Checked (Option Nat) := do
  let (minute, c) ← (Cursor.start payload).opt fun c => c.num 2 0 10079
  c.finish minute

/-- The greatest value of a field of a product entry: 0 in an undefined entry (R187). -/
def top (defined : Bool) (hi : Nat) : Nat := if defined then hi else 0

/-- The least value of a field of a product entry: 0 in an undefined entry. -/
def bottom (defined : Bool) (lo : Nat) : Nat := if defined then lo else 0

/-- A product entry, its fields in the order of R182, against the ranges of R182 or, undefined, against 0. -/
def Cursor.product (c : Cursor) : Checked (Product × Cursor) := do
  let (d, c) ← c.flag
  let (family, c) ← c.pick fun b => if h : b.toNat ≤ top d 15 then
    some (⟨b.toNat, by have : top d 15 ≤ 15 := by unfold top; split <;> omega
                       omega⟩ : Fin 16) else none
  let (setPoint, c) ← c.temp (if d then -55 else 0) (if d then 175 else 0)
  let (kit, c) ← c.num 2 0 (top d 65535)
  let (options, c) ← c.num 2 0 (top d 65535)
  let (program, c) ← c.num 4 (bottom d 1) (top d (2 ^ 32 - 1))
  let (plan, c) ← c.pick fun b => if h : b.toNat ≤ top d 7 then
    some (⟨b.toNat, by have : top d 7 ≤ 7 := by unfold top; split <;> omega
                       omega⟩ : Fin 8) else none
  let (yieldMin, c) ← c.num 2 0 (top d 10000)
  let (guard, c) ← c.num 2 0 (top d 4095)
  let (maxRetests, c) ← c.num 1 0 (top d 3)
  let (soakTime, c) ← c.num 2 0 (top d 3600)
  let (permille, c) ← c.num 2 0 (top d 1000)
  let (sampleMin, c) ← c.num 2 (bottom d 1) (top d 500)
  let (sampleMax, c) ← c.num 2 sampleMin (top d 2000)
  let (accept, c) ← c.num 1 0 (top d 255)
  let (siteLimit, c) ← c.num 2 (bottom d 1) (top d 10000)
  let (siteGuard, c) ← c.num 2 (bottom d 1) (top d 1023)
  .ok (⟨d, family, setPoint, kit, BitVec.ofNat 16 options, BitVec.ofNat 32 program, plan, yieldMin, guard,
    maxRetests, soakTime, permille, sampleMin, sampleMax, accept, siteLimit, siteGuard⟩, c)

/-- WPRD: product index and product entry (R187). -/
def readWprd (payload : List Byte) : Checked (Fin 32 × Product) := do
  let (index, c) ← (Cursor.start payload).below 32
  let (product, c) ← c.product
  c.finish (index, product)

/-- What WBPL says of one bin: class and limit (R188). -/
def Cursor.binRule (c : Cursor) : Checked (BinRule × Cursor) := do
  let (cls, c) ← c.pick readBinClass
  let (limit, c) ← c.num 2 0 10000
  .ok (⟨cls, limit⟩, c)

/-- WBPL: plan index and, for each of the 16 bins, class and limit (R188). -/
def readWbpl (payload : List Byte) : Checked (Fin 8 × BinPlan) := do
  let (index, c) ← (Cursor.start payload).below 8
  let (rules, c) ← Cursor.many Cursor.binRule 16 c
  c.finish (index, Vector.ofFn fun b => rules.getD b.val ⟨.fail, Config.whole⟩)

/-- WPAR: the whole parameter set (R189). -/
def readWpar (payload : List Byte) : Checked Parameters := do
  let c := Cursor.start payload
  let (aging, c') ← c.num 2 0 900
  if 1 ≤ aging ∧ aging ≤ 4 then .error c.offset else
  let (negotiation, c) ← c'.num 1 1 60
  let (load, c) ← c.num 2 10 3600
  let (settle, c) ← c.num 2 10 3600
  let (close, c) ← c.num 1 1 120
  let (step, c) ← c.num 1 0 255
  let (attention, c) ← c.num 1 1 32
  let (period, c) ← c.num 2 59 10079
  let (mark, c) ← c.opt fun c => c.num 2 0 period
  c.finish ⟨aging, negotiation, load, settle, close, step, attention, period, mark⟩

/-- WWIN: window index, kind, start and end (R190). -/
def readWwin (payload : List Byte) : Checked (Fin 4 × Window) := do
  let (index, c) ← (Cursor.start payload).below 4
  let (kind, c) ← c.pick readWindowKind
  let (start, c) ← c.num 2 0 10079
  let (stop, c) ← c.num 2 0 10079
  c.finish (index, ⟨kind, start, stop⟩)

/-- An ability record of a kind, with the checks of R21. DEDUCED (log 10): of several offending fields the
lowest offset is named, whichever of R9 and R21 finds it. -/
def Cursor.ability (c : Cursor) : EquipKind → Checked (Ability × Cursor)
  | .handler => do
    let (families, c) ← c.set16
    let (lo, c) ← c.temp (-60) 200
    let (hi, c) ← c.temp (max lo (-60)) 200
    let (sites, c) ← c.num 1 1 255
    let (kit, c) ← c.num 2 1 65535
    .ok (.handler ⟨families, lo, hi, BitVec.ofNat 8 sites, kit⟩, c)
  | .tester => do
    let (sites, c) ← c.num 1 1 255
    let (options, c) ← c.set16
    let (program, c) ← c.id 0
    .ok (.tester ⟨BitVec.ofNat 8 sites, options, program⟩, c)

/-- EANN: kind and ability record (12.4). -/
def readEann (payload : List Byte) : Checked Ability := do
  let (kind, c) ← (Cursor.start payload).pick readKind
  let (ability, c) ← c.ability kind
  c.finish ability

/-- EABL: cell, kind and ability record (12.4). -/
def readEabl (payload : List Byte) : Checked (CellNo × Ability) := do
  let (cell, c) ← (Cursor.start payload).below 16
  let (kind, c) ← c.pick readKind
  let (ability, c) ← c.ability kind
  c.finish (cell, ability)

/-- ECNF: cell and echo (12.4). DEDUCED (log 11): the echo's parts are compared (R41) and not range
checked, since its entry states no range for them. -/
def readEcnf (payload : List Byte) : Checked (CellNo × Capability) := do
  let (cell, c) ← (Cursor.start payload).below 16
  let (families, c) ← c.set16
  let (lo, c) ← c.temp (-32768) 32767
  let (hi, c) ← c.temp (-32768) 32767
  let (kit, c) ← c.num 2 0 65535
  let (options, c) ← c.set16
  let (sites, c) ← c.sites
  c.finish (cell, ⟨families, lo, hi, kit, options, sites⟩)

/-- EPLD and ELDF: cell and program id (R95, R96). -/
def readProgram (payload : List Byte) : Checked (CellNo × Id) := do
  let (cell, c) ← (Cursor.start payload).below 16
  let (program, c) ← c.id 1
  c.finish (cell, program)

/-- ETMP: cell and temperature (R98). -/
def readEtmp (payload : List Byte) : Checked (CellNo × Int) := do
  let (cell, c) ← (Cursor.start payload).below 16
  let (t, c) ← c.temp (-60) 200
  c.finish (cell, t)

/-- The payload of ERND (R105). -/
structure ErndFields where
  cell   : CellNo
  run    : Nat
  count  : Nat
  reason : EndReason
deriving DecidableEq, Repr

def readErnd (payload : List Byte) : Checked ErndFields := do
  let (cell, c) ← (Cursor.start payload).below 16
  let (run, c) ← c.num 2 0 65535
  let (count, c) ← c.num 2 0 65535
  let (reason, c) ← c.pick readEndReason
  c.finish ⟨cell, run, count, reason⟩

/-- An entry of an EBIN list (R115, 12.5). `clean` says that its reserved bits are zero. -/
structure BinEntry where
  site   : Fin 8
  bin    : Fin 16
  again  : Nat
  origin : Option (Fin 16)
  clean  : Bool
deriving DecidableEq, Repr

/-- The payload of EBIN (R115). -/
structure EbinFields where
  lot     : Id
  run     : Nat
  entries : List BinEntry
deriving DecidableEq, Repr

/-- The entry that 2 bytes, or 3 when tagged, carry (12.5). -/
def binEntry (first second : Byte) (third : Option Byte) : BinEntry where
  site := ⟨(first.toNat / 16) % 8, Nat.mod_lt _ (by omega)⟩
  bin := ⟨first.toNat % 16, Nat.mod_lt _ (by omega)⟩
  again := second.toNat % 128
  origin := third.map fun t => ⟨t.toNat % 16, Nat.mod_lt _ (by omega)⟩
  clean := second.toNat < 128 && (third.map fun t => decide (t.toNat < 16)).getD true

/-- The next entry: 2 bytes when bit 7 of its first byte is clear, else 3 (R196). An entry left incomplete
is refused with its offset (R116). -/
def Cursor.binEntry (c : Cursor) : Checked (BinEntry × Cursor) :=
  match c.rest with
  | first :: second :: rest =>
    if first.toNat < 128 then .ok (Machine.binEntry first second none, ⟨c.offset + 2, rest⟩)
    else match rest with
      | third :: rest => .ok (Machine.binEntry first second (some third), ⟨c.offset + 3, rest⟩)
      | [] => .error c.offset
  | _ => .error c.offset

/-- EBIN: lot id, run number, entry count and the entries (R115, R116). -/
def readEbin (payload : List Byte) : Checked EbinFields := do
  let (lot, c) ← (Cursor.start payload).id 1
  let (run, c) ← c.num 2 0 65535
  let (count, c) ← c.num 1 1 120
  let (entries, c) ← Cursor.many Cursor.binEntry count c
  c.finish ⟨lot, run, entries⟩

end Sys2Proof.Machine
end

