-- ==== Sys2Proof/Machine/Ops.lean ====
section
/-! DEFINITION. The named operations over the records: reading and writing one port unit, cell, lot or
table position, the work of a port unit, and the routing of notices. -/

namespace Sys2Proof.Machine

/-! ## Reading and writing one record -/

def State.port (s : State) (p : Port) : PortUnit := s.ports[p]

def State.setPort (s : State) (p : Port) (u : PortUnit) : State := { s with ports := s.ports.set p u }

def State.onPort (s : State) (p : Port) (f : PortUnit → PortUnit) : State := s.setPort p (f (s.port p))

/-- Every port unit is changed by `f`. -/
def State.onPorts (s : State) (f : PortUnit → PortUnit) : State := { s with ports := s.ports.map f }

def State.cell (s : State) (c : CellNo) : Cell := s.cells[c]

def State.setCell (s : State) (c : CellNo) (x : Cell) : State := { s with cells := s.cells.set c x }

def State.onCell (s : State) (c : CellNo) (f : Cell → Cell) : State := s.setCell c (f (s.cell c))

def State.entry (s : State) (i : Position) : Option Entry := s.equipment[i]

def State.setEntry (s : State) (i : Position) (e : Option Entry) : State :=
  { s with equipment := s.equipment.set i e }

def State.lot (s : State) (id : Id) : Option Lot := s.lots.find? fun l => l.id = id

/-- Every lot with this id is changed by `f`; `f` keeps the id. -/
def State.onLot (s : State) (id : Id) (f : Lot → Lot) : State :=
  { s with lots := s.lots.map fun l => if l.id = id then f l else l }

def State.product (s : State) (l : Lot) : Product := s.tables.products[l.product]

def State.plan (s : State) (p : Product) : BinPlan := s.tables.plans[p.plan]

/-- The bin plan of a lot: its product's (R114). -/
def State.planOf (s : State) (l : Lot) : BinPlan := s.plan (s.product l)

/-- The lot bound to a cell. -/
def State.boundLot (s : State) (c : CellNo) : Option Lot := (s.cell c).bound.bind s.lot

/-- The lot is unheld; a lot that is not in the table is not. -/
def State.lotUnheld (s : State) (id : Id) : Bool := ((s.lot id).map Lot.unheld).getD false

/-! ## Sites, families and options -/

/-- Membership in a set of sites. -/
def SiteSet.has (v : SiteSet) (site : Fin 8) : Bool := v.getLsbD site.val

def SiteSet.add (v : SiteSet) (site : Fin 8) : SiteSet := v ||| BitVec.ofNat 8 (2 ^ site.val)

def SiteSet.drop (v : SiteSet) (site : Fin 8) : SiteSet := v &&& ~~~(BitVec.ofNat 8 (2 ^ site.val))

/-- A subset test: every member of `v` is a member of `w`. -/
def subset {n : Nat} (v w : BitVec n) : Bool := v &&& w = v

/-! ## The port unit (chapter 1) -/

/-- Ports 0 and 1 are the supervisors'. -/
def supervisor (p : Port) : Bool := p.val < 2

/-- The transmitter takes the next frame, if its line is idle: the response, else the flow slot, else the
oldest unsent notice (R16). -/
def PortUnit.startNext (u : PortUnit) : PortUnit :=
  if u.line.isSome then u else
  match u.service with
  | some ⟨frame, _, .answered payload⟩ => { u with line := some ⟨.response, responseBytes frame payload⟩ }
  | _ =>
    match u.flow, u.unsent with
    | some f, _ => { u with flow := none, line := some ⟨.flow, f.bytes⟩ }
    | none, n :: rest =>
      { u with sending := some n, unsent := rest, line := some ⟨.notice, n.bytes⟩ }
    | none, [] => u

/-- Room for one more notice: a free staged slot on an equipment port (R14); on ports 0 and 1 fewer than
16 notices, the one on the line counted (R15). -/
def PortUnit.hasRoom (sup : Bool) (u : PortUnit) : Bool :=
  if sup then u.unsent.length + (if u.sending.isSome then 1 else 0) < Config.supervisorRoom
  else u.unsent.isEmpty

/-- A notice is handled by an outbox (R14, R15): it replaces an unsent one of its key, or is placed, or is
lost. -/
def PortUnit.place (sup : Bool) (n : Notice) (u : PortUnit) : PortUnit :=
  if u.unsent.any (fun m => m.key = n.key) then
    { u with unsent := u.unsent.map fun m => if m.key = n.key then n else m }
  else if u.hasRoom sup then { u with unsent := u.unsent ++ [n] }
  else { u with noticeLost := true }

/-- The head of the intake queue is taken into an empty service slot (R7), with the effect of its leaving
on the hold-off flag (R6). -/
def PortUnit.take (u : PortUnit) : PortUnit :=
  match u.service, u.intake with
  | none, f :: rest =>
    let u' := { u with service := some ⟨f, rest.length, .taken⟩, intake := rest }
    if rest.length = Config.resumeAt ∧ u.holdOff then u'.clearHoldOff else u'
  | _, _ => u

/-- A start-up load ends with this port unit (R184): a request that was taken into service while the load lasted and
is not examined yet stays one that the load answers BUSY. -/
def PortUnit.loadEnds (u : PortUnit) : PortUnit :=
  { u with
    service := u.service.map fun v : Service =>
      if v.progress = .taken then { v with progress := .takenInLoad } else v }

/-- A request frame joins the intake queue, or is discarded if 8 wait (R5), with the effect of its joining
on the hold-off flag (R6). -/
def PortUnit.join (u : PortUnit) (f : Frame) : PortUnit :=
  if u.intake.length < Config.intakeRoom then
    let u' := { u with intake := u.intake ++ [f] }
    if u'.intake.length = Config.holdOffAt ∧ !u.holdOff then u'.setHoldOff else u'
  else u.countOverrun

/-- The frame whose bytes after the length byte are `got`, if its CRC is good and its type is REQUEST
(R4). -/
def judge (length : Nat) (got : List Byte) : Option Frame :=
  match got with
  | type :: code :: tag :: a :: b :: c :: d :: rest =>
    let payload := rest.take (length - 6)
    let crc := rest.drop (length - 6)
    let guarded := BitVec.ofNat 8 length :: type :: code :: tag :: a :: b :: c :: d :: payload
    if crc = be 2 (crc16 guarded).toNat ∧ type = requestType then
      some ⟨code, tag, BitVec.ofNat 32 (ofBe [a, b, c, d]), payload⟩
    else none
  | _ => none

/-- A complete frame is judged and, when it is a good request, offered to the intake queue; the receiver
returns to HUNTING (R2, R4). A head frame that finds the service slot empty is taken at once (R7), and an
idle transmitter sends what that makes ready (R16). -/
def PortUnit.complete (u : PortUnit) (length : Nat) (got : List Byte) : PortUnit :=
  let u := { u with receiver := .hunting }
  match judge length got with
  | none => u.countCrcError
  | some f => (u.join f).take.startNext

/-- Whether these bytes after the length byte make the frame complete: one type byte, the bytes the length
counts, two CRC bytes (R2). -/
def frameWhole (length : Nat) (got : List Byte) : Bool := got.length = length + 3

/-- A byte reaches the frame receiver (R2). -/
def PortUnit.receive (u : PortUnit) (b : Byte) : PortUnit :=
  match u.receiver with
  | .hunting => if b = Config.syncFirst then { u with receiver := .synced } else u
  | .synced =>
    if b = Config.syncSecond then { u with receiver := .header }
    else if b = Config.syncFirst then u
    else { u with receiver := .hunting }
  | .header =>
    if 6 ≤ b.toNat then { u with receiver := .body b.toNat [] }
    else { u with receiver := .hunting }.countCrcError
  | .body length got =>
    if frameWhole length (got ++ [b]) then u.complete length (got ++ [b])
    else { u with receiver := .body length (got ++ [b]) }

/-- Idle line time of more than 5 ms (R3). -/
def PortUnit.gap (u : PortUnit) : PortUnit :=
  match u.receiver with
  | .hunting => u
  | _ => { u with receiver := .hunting }.countGapAbort

/-- The frame on the line was FRST's GOOD response (R194). -/
def PortUnit.sendsFloorReset (u : PortUnit) : Bool :=
  match u.line, u.service with
  | some ⟨.response, _⟩, some ⟨frame, _, .answered payload⟩ =>
    Req.ofCode frame.code = some .frst && payload.head? = some 0
  | _, _ => false

/-- A frame from before a FLOOR RESET has ended: an RSUM that the reset placed is the first frame after it, even
when a request has been answered meanwhile (R19); else the transmitter goes on as R16 states. -/
def PortUnit.resumeFirst (u : PortUnit) : PortUnit :=
  if u.line.isNone ∧ u.flow = some .rsum then
    { u with flow := none, line := some ⟨.flow, Flow.rsum.bytes⟩ }
  else u.startNext

/-- The last character of the frame on the line has been sent (R7, R14, R15, R16). After FRST's GOOD
response nothing further is taken or sent: the floor reset acts at that moment (R19). -/
def PortUnit.sent (u : PortUnit) : PortUnit :=
  match u.line with
  | none => u
  | some ⟨.response, _⟩ =>
    let u' := { u with service := none, line := none }
    if u.sendsFloorReset then u' else u'.take.startNext
  | some ⟨.notice, _⟩ => { u with sending := none, line := none }.startNext
  | some ⟨.flow, _⟩ => { u with line := none }.startNext
  | some ⟨.leftOver, _⟩ => { u with line := none }.resumeFirst

/-- A port unit when FRST acts (R19). DEDUCED (log 12): a clear hold-off flag leaves the flow slot empty,
an unsent RSUM included. -/
def PortUnit.floorReset (u : PortUnit) : PortUnit :=
  let flow : Option Flow :=
    if u.holdOff then (if u.flow = some .hoff then none else some .rsum) else none
  let u' : PortUnit :=
    { u with
      receiver := .hunting, intake := [], service := none, sense := Sense.clear, holdOff := false,
      flow := flow, sending := none, unsent := [],
      line := u.line.map fun l : Line => ⟨.leftOver, l.bytes⟩ }
  u'.startNext

/-! ## Equipment -/

/-- The position and entry of an equipment id, PRESENT or STALE (R23). -/
def State.find (s : State) (id : Id) : Option (Position × Entry) :=
  (List.finRange 48).findSome? fun i =>
    match s.entry i with
    | some e => if e.id = id then some (i, e) else none
    | none => none

/-- The entry of an equipment id. -/
def State.equip (s : State) (id : Id) : Option Entry := (s.find id).map (·.2)

/-- The entry of an id is in the table and PRESENT. -/
def State.isPresent (s : State) (id : Id) : Bool :=
  ((s.equip id).map fun e => decide (e.state = .present)).getD false

/-- The entries whose port is this port, PRESENT and STALE alike (R20). -/
def State.portCount (s : State) (p : Port) : Nat :=
  ((List.finRange 48).filter fun i => ((s.entry i).map fun e => decide (e.port = p)).getD false).length

/-- The free position with the lowest index (R22). -/
def State.freePosition (s : State) : Option Position :=
  (List.finRange 48).find? fun i => (s.entry i).isNone

/-- The entry of an id, wherever it stands, is changed by `f`. -/
def State.onEquip (s : State) (id : Id) (f : Entry → Entry) : State :=
  match s.find id with
  | some (i, e) => s.setEntry i (some (f e))
  | none => s

/-- The handler's ability record of a cell. -/
def State.handlerAbility (s : State) (c : CellNo) : Option HandlerAbility :=
  (((s.cell c).handler).bind s.equip).bind fun e =>
    match e.ability with
    | .handler a => some a
    | .tester _ => none

/-- The tester's ability record of a cell. -/
def State.testerAbility (s : State) (c : CellNo) : Option TesterAbility :=
  (((s.cell c).tester).bind s.equip).bind fun e =>
    match e.ability with
    | .tester a => some a
    | .handler _ => none

/-- The sender is a member of the cell (R39, R41, R95, R105). -/
def Cell.hasMember (c : Cell) (id : Id) : Bool := c.handler = some id || c.tester = some id

/-! ## Notices (R13, R31) -/

/-- A notice is routed to a port: its outbox handles it, and an idle transmitter begins it at once.
DESIGN CHOICE (log 6), unsafe: the rules do not say whether an idle transmitter begins a notice before the
event that made it has ended. -/
def State.notify (s : State) (p : Port) (n : Notice) : State :=
  s.onPort p fun u => (u.place (supervisor p) n).startNext

/-- The port of the floor host, of the QA station. -/
def hostPort : Port := 0
def qaPort : Port := 1

/-- A notice for a piece of equipment goes to the port of its entry, or is discarded when the entry is
STALE or absent (R13, R31). -/
def State.notifyEquip (s : State) (id : Id) (n : Notice) : State :=
  match s.equip id with
  | some e => if e.state = .present then s.notify e.port n else s
  | none => s

/-- A notice for a member of a cell; an absent member gets none. -/
def State.notifyMember (s : State) (m : Option Id) (n : Id → Notice) : State :=
  match m with
  | some id => s.notifyEquip id (n id)
  | none => s

/-- A notice for the handler and then one for the tester. DESIGN CHOICE (log 5): the order of the two. -/
def State.notifyMembers (s : State) (c : CellNo) (n : Id → Notice) : State :=
  (s.notifyMember (s.cell c).handler n).notifyMember (s.cell c).tester n

/-- NCEL: the cell as it stands (R36). -/
def State.ncel (s : State) (c : CellNo) : State :=
  let x := s.cell c
  s.notify hostPort (.ncel c x.state x.mode x.fault x.bound)

/-- NLOT: the lot as it stands (R71). -/
def State.nlot (s : State) (id : Id) (cause : Cause) (hold : Option (HoldKind × Nat) := none) : State :=
  match s.lot id with
  | some l => s.notify hostPort (.nlot id (some l.state) l.holdCount l.overflow cause hold)
  | none => s

/-- The cell is changed by `f`, and an NCEL shows it (R36). -/
def State.moveCell (s : State) (c : CellNo) (f : Cell → Cell) : State := (s.onCell c f).ncel c

/-! ## Responses (R10, R11) -/

/-- The outcome a block gives a request: carried out with response data, could not be taken now, refused
with a sense code and its argument, or waiting for the store (R7). -/
inductive Reply where
  | good (data : List Byte)
  | busy
  | check (code : SenseCode) (arg : BitVec 32)
  | wait
deriving DecidableEq, Repr

/-- The payload of a response: the status byte, and what follows it (R10, R195). -/
def Reply.payload : Reply → List Byte
  | .good data => 0 :: data
  | .busy => [1]
  | .check code arg => 2 :: code.byte :: be32 arg
  | .wait => []

/-- The port unit takes the outcome of its request: the sense record changes as R11 states, the response
is ready, and an idle transmitter begins it. A request that waits keeps its slot and gets no response. -/
def PortUnit.answer (u : PortUnit) (req : Option Req) (reply : Reply) : PortUnit :=
  let sense : Sense := match reply with
    | .check code arg => ⟨code, arg, req⟩
    | .wait => u.sense
    | .good _ | .busy => Sense.clear
  let progress : Progress := match reply with
    | .wait => .waiting
    | .good _ | .busy | .check _ _ => .answered reply.payload
  let u' : PortUnit :=
    { u with sense := sense, service := u.service.map fun v : Service => { v with progress := progress } }
  u'.startNext

def State.answer (s : State) (p : Port) (req : Option Req) (reply : Reply) : State :=
  s.onPort p fun u => u.answer req reply

/-- BUSY at start-up: the sense record takes START-UP (R8 step 1, R11). -/
def PortUnit.answerStartUp (u : PortUnit) (req : Option Req) : PortUnit :=
  let u' : PortUnit :=
    { u with
      sense := ⟨.startUp, 0, req⟩,
      service := u.service.map fun v : Service => { v with progress := .answered Reply.busy.payload } }
  u'.startNext

def State.answerStartUp (s : State) (p : Port) (req : Option Req) : State :=
  s.onPort p fun u => u.answerStartUp req

/-- A number as a sense argument. -/
def arg (n : Nat) : BitVec 32 := BitVec.ofNat 32 n

end Sys2Proof.Machine
end

