-- ==== Sys2Proof/Machine/Queue.lean ====
section
/-! DEFINITION. The dispatch queue (5.1 to 5.3): effective priority, queue order, joining and leaving. -/

namespace Sys2Proof.Machine

/-- The effective priority after `waited` minutes in the queue (R76). -/
def effectivePriority (step base waited : Nat) : Nat :=
  if step = 0 then base
  else if 7 - base ≤ waited / step then 7
  else base + waited / step

/-- The minutes since a stamp, as an unsigned 32-bit difference (R76). -/
def State.minutesSince (s : State) (stamp : Stamp) : Nat := (s.clock.stamp - stamp).toNat

/-- The entry sequence of a lot in the queue. -/
def State.sequenceOf (s : State) (w : Waiting) : Nat := ((s.lot w.lot).map fun l => l.sequence.toNat).getD 0

/-- Place a queue item before the first item it stands before, so behind all its equals. -/
def insertBy {α : Type} (ahead : α → α → Bool) (x : α) : List α → List α
  | [] => [x]
  | y :: ys => if ahead x y then x :: y :: ys else y :: insertBy ahead x ys

/-- Put items one after another at their places; equals keep the order they come in. -/
def sortBy {α : Type} (ahead : α → α → Bool) (xs : List α) : List α :=
  xs.foldl (fun acc x => insertBy ahead x acc) []

/-- `a` stands before `b`: higher effective priority, or the same and a lower entry sequence (R75). -/
def State.ahead (s : State) (a b : Waiting) : Bool :=
  b.priority < a.priority || (a.priority = b.priority && s.sequenceOf a < s.sequenceOf b)

/-- The dispatch queue in queue order (R75); `queue` stands in the order of joining, so of two lots alike in
priority and sequence the one that joined earlier stands first. -/
def State.queueOrder (s : State) : List Waiting := sortBy s.ahead s.queue

/-- The lot is in the dispatch queue. -/
def State.inQueue (s : State) (id : Id) : Bool := s.queue.any fun w => w.lot = id

/-- The effective priority of a lot, absent outside the queue (R74). -/
def State.priorityOf (s : State) (id : Id) : Option Nat :=
  (s.queue.find? fun w => w.lot = id).map fun w => w.priority

/-- A lot joins the queue (R78 steps 1 to 3): new queue-join stamp, effective priority the base priority. -/
def State.joinQueue (s : State) (id : Id) : State :=
  match s.lot id with
  | some l =>
    let s := s.onLot id fun l => { l with joinStamp := s.clock.stamp }
    { s with queue := s.queue ++ [⟨id, l.basePriority⟩] }
  | none => s

/-- A lot leaves the queue (R79); the stamp stays in its record. -/
def State.leaveQueue (s : State) (id : Id) : State :=
  { s with queue := s.queue.filter fun w => w.lot ≠ id }

/-- The present effective priority of a queue item. -/
def State.freshPriority (s : State) (w : Waiting) : Waiting :=
  match s.lot w.lot with
  | some l =>
    { w with priority :=
        effectivePriority s.tables.parameters.agingStep l.basePriority (s.minutesSince l.joinStamp) }
  | none => w

/-- Every effective priority is computed again (R77). -/
def State.recompute (s : State) : State := { s with queue := s.queue.map s.freshPriority }

/-- The effective priority of one lot in the queue is computed again (R66, R76). -/
def State.recomputeLot (s : State) (id : Id) : State :=
  { s with queue := s.queue.map fun w => if w.lot = id then s.freshPriority w else w }

end Sys2Proof.Machine
end

