-- ==== Sys2Proof/Machine/Release.lean ====
section
/-! DEFINITION. The release unit (chapter 9): the sample decision, shipment records, offering and
attention. -/

namespace Sys2Proof.Machine

/-! ## The sample decision (9.1) -/

/-- The lot becomes ACCEPTED with no sample (R153). -/
def State.acceptUnsampled (s : State) (id : Id) : State :=
  (s.onLot id fun l => { l with state := .accepted, rejects := 0 }).nlot id .accepted

/-- The lot goes to SAMPLING and NSMP is made (R155). -/
def State.sendSample (s : State) (id : Id) (product : Fin 32) (n : Nat) : State :=
  let s := s.onLot id fun l => { l with sampleSize := some n, state := .sampling, samplePending := true }
  (s.notify qaPort (.nsmp id product n)).nlot id .sampling

/-- The sample decision for a lot that is TESTED and unheld (R153, R154); any other lot is not decided. -/
def State.decideSample (s : State) (id : Id) : State :=
  match s.lot id with
  | some l =>
    if l.state = .tested && l.unheld then
      let p := s.product l
      let n := sampleSize p (l.passed (s.plan p))
      if p.samplePermille = 0 ∨ n = 0 then s.acceptUnsampled id else s.sendSample id l.product n
    else s
  | none => s

/-! ## Shipment records (R161) -/

/-- The grade list: the PASS-class bins whose F is above 0, in bin order. -/
def Lot.grades (l : Lot) (p : BinPlan) : List (Fin 16 × Nat) :=
  ((p.binsOf .pass).filter fun b => 0 < l.final[b]).map fun b => (b, l.final[b])

/-- The shipment record made of a lot at this moment. -/
def State.shipmentOf (s : State) (l : Lot) : Shipment :=
  let passed := l.passed (s.planOf l)
  { lot := l.id, product := l.product, stamp := s.clock.stamp, minute := s.clock.minute,
    started := l.started, lost := l.lost, passed := passed, rejects := l.rejects,
    shipped := passed - l.rejects, yield := shareDown (passed - l.rejects) l.started,
    grades := l.grades (s.planOf l),
    offer := if s.clock.releaseGate = .closed then .queued else .offered }

/-- The shipment record of a lot, while it is in the release queue. -/
def State.shipment (s : State) (id : Id) : Option Shipment := s.shipments.find? fun r => r.lot = id

/-! ## Offering and attention (R162 to R166) -/

/-- The number of OFFERED records (R162). -/
def State.offeredCount (s : State) : Nat := (s.shipments.filter fun r => r.offer = .offered).length

/-- Every record takes an offer state (R163). -/
def State.offerAll (s : State) (o : OfferState) : State :=
  { s with shipments := s.shipments.map fun r => { r with offer := o } }

/-- The attention test (R166). -/
def State.attentionTest (s : State) : State :=
  if s.armed ∧ s.tables.parameters.attention ≤ s.offeredCount then
    { s with armed := false }.notify hostPort (.natt s.offeredCount s.shipments.length)
  else s

/-- A record leaves the release queue at its place (R162). -/
def State.dropShipment (s : State) (id : Id) : State :=
  { s with shipments := s.shipments.filter fun r => r.lot ≠ id }

/-- A first hold withdraws the shipment record of a RELEASED lot (R144, R165). -/
def State.withdraw (s : State) (id : Id) : State :=
  ((s.dropShipment id).onLot id fun l => { l with state := .accepted }).nlot id .withdrawn

end Sys2Proof.Machine
end

