-- ==== Sys2Proof/Machine/Holds.lean ====
section
/-! DEFINITION. The hold list (chapter 8): placement, overflow, the first hold, and removal. `src` is the
port on which the request arrived whose event places the hold, absent for a tick (R136). -/

namespace Sys2Proof.Machine

/-- A record names this key (R136). -/
def HoldRecord.is (h : HoldRecord) (id : Id) (kind : HoldKind) (arg : Nat) : Bool :=
  h.lot = id && h.kind = kind && h.arg = arg

/-- A record with this key is in the list. -/
def State.hasHold (s : State) (id : Id) (kind : HoldKind) (arg : Nat) : Bool :=
  s.holds.any fun h => h.is id kind arg

/-- The hold list holds 64 records (R137). -/
def State.holdsFull (s : State) : Bool := Config.holdRoom ≤ s.holds.length

/-- The lot's records, in list order (R69, R137). -/
def State.holdsOf (s : State) (id : Id) : List HoldRecord := s.holds.filter fun h => h.lot = id

/-- A RUNNING cell whose lot becomes held stops its run (R104). -/
def State.stopRun (s : State) (c : CellNo) : State :=
  match (s.cell c).state, (s.cell c).run with
  | .running, some r =>
    let s := s.notifyMember (s.cell c).handler fun id =>
      .nsto id c (((s.cell c).bound).getD 0) r.number
    s.moveCell c fun x => { x with run := some { r with stopFlag := true }, state := .stopping }
  | _, _ => s

/-- The effects of a first hold, by the lot's state and its cell's (R143). -/
def State.firstHold (s : State) (id : Id) : State :=
  match s.lot id with
  | none => s
  | some l =>
    match l.state with
    | .waiting => s.leaveQueue id
    | .bound => match l.cell with
      | some c => s.stopRun c
      | none => s
    | .released => s.withdraw id
    | .tested | .sampling | .accepted => s

/-- A record is appended, the lot's hold count rises, an NLOT shows it, and a first hold acts (R139 steps 3
and 4). -/
def State.appendHold (s : State) (h : HoldRecord) : State :=
  let first := s.lotUnheld h.lot
  let s := { s with holds := s.holds ++ [h] }
  let s := s.onLot h.lot fun l => { l with holdCount := l.holdCount + 1 }
  let s := s.nlot h.lot .holdPlaced (some (h.kind, h.arg))
  if first then s.firstHold h.lot else s

/-- The lot's overflow flag is set by an automatic placement that finds the list full (R140). -/
def State.setOverflow (s : State) (id : Id) : State :=
  match s.lot id with
  | none => s
  | some l =>
    if l.overflow then s else
    let s := (s.onLot id fun l => { l with overflow := true }).nlot id .overflowSet
    if l.unheld then s.firstHold id else s

/-- An automatic placement (R139). -/
def State.placeHold (s : State) (src : Option Port) (id : Id) (kind : HoldKind) (arg detail : Nat) : State :=
  if (s.lot id).isNone ∨ s.hasHold id kind arg then s
  else if s.holdsFull then s.setOverflow id
  else s.appendHold ⟨id, kind, arg, detail, src, s.clock.stamp, 0⟩

/-- The record with this key is taken out at its place and the lot's hold count falls (R137, R146). -/
def State.removeHold (s : State) (id : Id) (kind : HoldKind) (arg : Nat) : State :=
  let s := { s with holds := s.holds.filter fun h => !h.is id kind arg }
  s.onLot id fun l => { l with holdCount := l.holdCount - 1 }

/-- Every record naming the lot is taken out (R149). -/
def State.removeHoldsOf (s : State) (id : Id) : State :=
  { s with holds := s.holds.filter fun h => h.lot ≠ id }

/-! ## Checks on a lot's ratios -/

/-- RECONCILE arguments (12.3). -/
def excessArg : Nat := 1
def shortRunArg : Nat := 2
def shortQuantityArg : Nat := 3
def shortRetestArg : Nat := 4

/-- The yield check (R129, R134). -/
def State.checkYield (s : State) (src : Option Port) (id : Id) : State :=
  match s.lot id with
  | none => s
  | some l =>
    match l.resolvedYield (s.planOf l) with
    | some y => if y < (s.product l).yieldMin then s.placeHold src id .yield 0 y else s
    | none => s

/-- The check of one bin's ratio (R129, R134). -/
def State.checkBin (src : Option Port) (id : Id) (s : State) (b : Fin 16) : State :=
  match s.lot id with
  | none => s
  | some l =>
    let limit := (s.planOf l)[b].limit
    match l.binRatio b with
    | some q => if limit < Config.whole ∧ limit < q then s.placeHold src id .bin b.val q else s
    | none => s

/-- The checks of yield and of the bins in ascending order: the final checks (R134), and the running checks
once T1 has reached the guard count (R129). -/
def State.checkRatios (s : State) (src : Option Port) (id : Id) : State :=
  (List.finRange 16).foldl (State.checkBin src id) (s.checkYield src id)

end Sys2Proof.Machine
end

