-- ==== Sys2Proof/Machine/Runs.lean ====
section
/-! DEFINITION. Preparation, run open and pass completion (chapter 6). No definition of this file serves the
cell: where a rule says that a cell which has become IDLE is then served, its caller does so with
`State.serve`, which does nothing to a cell that is not IDLE. -/

namespace Sys2Proof.Machine

/-! ## Pass completion (R109) -/

/-- The pool closes: every Pcur is added to F. -/
def Lot.closePool (l : Lot) : Lot := { l with final := l.final.add l.poolNow, poolNow := Bins.zero }

/-- Every Pnext is added to Pcur. -/
def Lot.mergePool (l : Lot) : Lot := { l with poolNow := l.poolNow.add l.poolNext, poolNext := Bins.zero }

/-- After the merge the next pass is pending: the pool is not all zero and k is below the maximum. -/
def Lot.retests (l : Lot) (maxRetests : Nat) : Bool := !l.mergePool.poolNow.isZero && l.pass < maxRetests

/-- Pass completion (R109). The pool has closed exactly when the lot does not retest; the caller then makes
the lot TESTED. -/
def Lot.completePass (l : Lot) (maxRetests : Nat) : Lot :=
  if l.retests maxRetests then { l.mergePool with pass := l.pass + 1 } else l.mergePool.closePool

/-- The lot leaves its cell TESTED (R110, first case): NLOT, the final checks, the sample decision, and the
cell IDLE. -/
def State.lotTested (s : State) (src : Option Port) (c : CellNo) (id : Id) : State :=
  let s := s.onLot id fun l => { l with cell := none, state := .tested }
  let s := s.nlot id .tested
  let s := s.onCell c fun x => { x with bound := none }
  let s := (s.checkRatios src id).decideSample id
  s.moveCell c fun x => { x with state := .idle }

/-! ## Run open (R102, R103) -/

/-- A run record at its open (R102). -/
def Run.opened (l : Lot) (number : BitVec 16) (sites : SiteSet) : Run where
  number := number
  pass := l.pass
  expected := l.expected
  binned := 0
  excess := 0
  sites := sites
  counts := Vector.replicate 8 ⟨0, 0⟩
  stopFlag := false
  handlerCount := none
  endReason := none
  closeDeadline := none

/-- A run opens on the lot's present pass (R102), or, with no active site, a SITE hold is placed and the cell
is PAUSED (R103). -/
def State.openRun (s : State) (src : Option Port) (c : CellNo) (l : Lot) : State :=
  if (s.cell c).active = 0 then
    (s.placeHold src l.id .site c.val 0).moveCell c fun x => { x with state := .paused }
  else
    let number := l.runCount + 1
    let run := Run.opened l number (s.cell c).active
    let s := s.onLot l.id fun l => { l with runCount := number }
    let s := s.moveCell c fun x => { x with run := some run, state := .running }
    let bins := if l.pass = 0 then none else some ((s.planOf l).binsOf .retest)
    s.notifyMembers c fun id => .nstr id c l.id number run.pass run.expected run.sites bins

/-- A cell whose bound lot is unheld goes on: a run opens where work is left, else pass completion runs, and
the lot leaves the cell TESTED or a run opens for the new pass (R102). DEDUCED (log 13): where no work is
left, an empty active site set does not matter. -/
def State.goOn (s : State) (src : Option Port) (c : CellNo) : State :=
  match s.boundLot c with
  | none => s
  | some l =>
    if l.hasWork then s.openRun src c l
    else
      let max := (s.product l).maxRetests
      let s := s.onLot l.id fun l => l.completePass max
      if l.retests max then s.openRun src c (l.completePass max) else s.lotTested src c l.id

/-! ## Preparation (R91 to R94) -/

/-- The loaded program id of the cell's tester. -/
def State.loadedProgram (s : State) (c : CellNo) : Option Id := (s.testerAbility c).map fun a => a.program

/-- The program part is decided by the tester's entry (R92). -/
def State.buildProgram (s : State) (c : CellNo) (p : Product) : State × ProgramPart × Option Nat :=
  if s.loadedProgram c = some p.program then (s, .notNeeded, none)
  else
    let s := s.notifyMember (s.cell c).tester fun id => .nldp id c p.program
    (s.onCell c fun x => { x with loadRequest := some p.program }, .pending, some s.tables.parameters.load)

/-- The thermal part is decided by the thermal record (R93). -/
def State.buildThermal (s : State) (c : CellNo) (p : Product) : State × ThermalPart × Option Nat :=
  let t := (s.cell c).thermal
  if t.setPoint = some p.setPoint then
    if t.reached then
      if p.soakTime ≤ t.soak then (s, .done, none) else (s, .soaking, none)
    else (s, .settling, some s.tables.parameters.settle)
  else
    let s := s.notifyMember (s.cell c).handler fun id => .nstp id c p.setPoint
    (s.onCell c fun x => { x with thermal := ⟨some p.setPoint, false, 0⟩ }, .settling,
      some s.tables.parameters.settle)

/-- The preparation is complete (R94). -/
def Preparation.complete (p : Preparation) : Bool := p.program ≠ .pending && p.thermal = .done

/-- Completion is tested (R94): a complete preparation is discarded, and the cell goes on with an unheld lot
or is PAUSED with a held one. -/
def State.testPreparation (s : State) (src : Option Port) (c : CellNo) : State :=
  match (s.cell c).preparation with
  | some p =>
    if p.complete then
      let s := s.onCell c fun x => { x with preparation := none }
      match (s.cell c).bound with
      | some id =>
        if s.lotUnheld id then s.goOn src c else s.moveCell c fun x => { x with state := .paused }
      | none => s
    else s
  | none => s

/-- The cell enters PREPARING with its bound lot, builds its preparation record, makes an NCEL, and tests
completion (R85, R91 to R94, R42). DESIGN CHOICE (log 5): the program part is built before the thermal part, so an
NLDP is made before an NSTP, which shows where both members have one port. -/
def State.prepare (s : State) (src : Option Port) (c : CellNo) : State :=
  match s.boundLot c with
  | none => s
  | some l =>
    let p := s.product l
    let (s, program, load) := s.buildProgram c p
    let (s, thermal, settle) := s.buildThermal c p
    let s := s.moveCell c fun x =>
      { x with state := .preparing, preparation := some ⟨program, load, thermal, settle⟩ }
    s.testPreparation src c

end Sys2Proof.Machine
end

