-- ==== Sys2Proof/Machine/Binding.lean ====
section
/-! DEFINITION. The dispatcher (chapter 5): eligibility, the gate, serving a cell, the lot-join offer,
binding and unbinding. -/

namespace Sys2Proof.Machine

/-- The mode of a cell takes lots of this class (R42, R80). -/
def Mode.takes : Mode → LotClass → Bool
  | .production, .production => true
  | .engineering, .engineering => true
  | _, _ => false

/-- A product suits a cell's mode and common capability (R42). -/
def suits (mode : Mode) (cap : Capability) (cls : LotClass) (p : Product) : Bool :=
  mode.takes cls && cap.families.getLsbD p.family.val && cap.bandMin ≤ p.setPoint && p.setPoint ≤ cap.bandMax
    && (p.kit = cap.kit || p.kit = 0) && subset p.options cap.options

/-- The lot's product suits the cell. -/
def State.lotSuits (s : State) (l : Lot) (c : CellNo) : Bool :=
  match (s.cell c).common with
  | some cap => suits (s.cell c).mode cap l.cls (s.product l)
  | none => false

/-- The lot is eligible for the cell (R80). -/
def State.eligible (s : State) (l : Lot) (c : CellNo) : Bool :=
  (s.cell c).state = .idle && s.lotSuits l c && (s.cell c).failed ≠ some (s.product l).program
    && (s.cell c).active ≠ 0

/-- A lot of the queue is bindable to the cell (R81). -/
def State.bindable (s : State) (c : CellNo) (w : Waiting) : Bool :=
  match s.lot w.lot with
  | some l => s.eligible l c && (s.clock.dispatchGate ≠ .closed || l.basePriority = 7)
  | none => false

/-- The cell's tester holds the lot's program (R82 step 3): program id 0 matches no product. -/
def State.holdsProgram (s : State) (c : CellNo) (w : Waiting) : Bool :=
  match s.lot w.lot, s.loadedProgram c with
  | some l, some program => program ≠ 0 && program = (s.product l).program
  | _, _ => false

/-- The lot that a cell served now takes (R82 steps 1 to 4). -/
def State.choice (s : State) (c : CellNo) : Option Id :=
  match s.queueOrder.filter (s.bindable c) with
  | [] => none
  | first :: rest =>
    let tier := (first :: rest).filter fun w => w.priority = first.priority
    some ((tier.find? (s.holdsProgram c)).getD first).lot

/-- A binding (R85): the lot leaves the queue and becomes BOUND; the cell enters PREPARING. -/
def State.bind (s : State) (src : Option Port) (id : Id) (c : CellNo) : State :=
  let s := s.leaveQueue id
  let s := s.onLot id fun l => { l with state := .bound, cell := some c }
  let s := s.nlot id .bound
  let s := s.onCell c fun x => { x with bound := some id }
  s.prepare src c

/-- Serve a cell, at most `fuel` times over: a cell whose lot leaves it TESTED within its binding is IDLE and
is served again (R110). -/
def State.serveUpTo (src : Option Port) (c : CellNo) : Nat → State → State
  | 0, s => s
  | fuel + 1, s =>
    match s.choice c with
    | none => s
    | some id => State.serveUpTo src c fuel (s.bind src id c)

/-- The dispatcher serves a cell (R82). Each binding takes a lot out of the queue and none joins in it, so
the length of the queue bounds the repetitions. A cell that is not IDLE binds nothing. -/
def State.serve (s : State) (src : Option Port) (c : CellNo) : State :=
  State.serveUpTo src c s.queue.length s

/-- The cell that the lot-join offer picks (R83 steps 1 and 2). -/
def State.pickCell (s : State) (w : Waiting) : Option CellNo :=
  let cells := (List.finRange 16).filter fun c => s.bindable c w
  (cells.find? fun c => s.holdsProgram c w).or cells.head?

/-- The lots ahead of a lot in the queue. -/
def State.aheadOf (s : State) (id : Id) : List Waiting := s.queueOrder.takeWhile fun w => w.lot ≠ id

/-- The lot-join offer, at most `fuel` times over (R83). -/
def State.offerUpTo (src : Option Port) (id : Id) : Nat → State → State
  | 0, s => s
  | fuel + 1, s =>
    match (s.queue.find? fun w => w.lot = id).bind s.pickCell with
    | none => s
    | some c =>
      if (s.aheadOf id).any (s.bindable c) then State.offerUpTo src id fuel (s.serve src c)
      else (s.bind src id c).serve src c

/-- The lot-join offer (R83): each repetition binds a lot of the queue, so its length bounds them. -/
def State.offer (s : State) (src : Option Port) (id : Id) : State :=
  State.offerUpTo src id s.queue.length s

/-- A lot that is WAITING and unheld joins the queue and is offered (R78). -/
def State.joinAndOffer (s : State) (src : Option Port) (id : Id) : State :=
  (s.joinQueue id).offer src id

/-- An unbinding (R86): the lot becomes WAITING, the cell takes the state its event gives it by `f`, the lot
joins the queue if it is unheld, the cell is served, and the lot, if still in the queue, is offered. -/
def State.unbind (s : State) (src : Option Port) (c : CellNo) (id : Id) (f : Cell → Cell) : State :=
  let s := s.onLot id fun l => { l with cell := none, state := .waiting }
  let s := s.nlot id .unbound
  let s := s.moveCell c fun x => f { x with bound := none }
  let s := if s.lotUnheld id then s.joinQueue id else s
  let s := s.serve src c
  if s.inQueue id then s.offer src id else s

/-- At an opening of the DISPATCH gate the cells then IDLE are served in ascending number (R84). -/
def State.serveIdle (s : State) (src : Option Port) : State :=
  ((List.finRange 16).filter fun c => (s.cell c).state = .idle).foldl (fun s c => s.serve src c) s

end Sys2Proof.Machine
end

