-- ==== Sys2Proof/Machine/Closing.lean ====
section
/-! DEFINITION. The end of a run, the failures of a preparation, and what a lot does on becoming unheld
(R97, R100, R106 to R111, R148). -/

namespace Sys2Proof.Machine

/-! ## Run close (R108, R110) -/

/-- The hold of a run close (R106, R107): its argument and its detail. -/
abbrev CloseHold := Option (Nat × Nat)

/-- A RECONCILE hold, if the close places one. -/
def State.placeCloseHold (s : State) (src : Option Port) (id : Id) (h : CloseHold) : State :=
  match h with
  | some (arg, detail) => s.placeHold src id .reconcile arg detail
  | none => s

/-- The shortfall of a run whose handler is EXHAUSTED with work left for the pass (R108 step 2). -/
def shortfall (l : Lot) (reason : EndReason) : CloseHold :=
  if reason = .exhausted ∧ l.hasWork then
    if l.pass = 0 then some (shortQuantityArg, l.started - l.tested - l.lost)
    else some (shortRetestArg, l.poolNow.total)
  else none

/-- What becomes of the lot and the cell after a close (R108 steps 3 and 4, R110). -/
def State.afterClose (s : State) (src : Option Port) (c : CellNo) (id : Id) : State :=
  match s.lot id with
  | none => s
  | some l =>
    let max := (s.product l).maxRetests
    let s := if l.hasWork then s else s.onLot id fun l => l.completePass max
    if !l.hasWork ∧ !l.retests max then s.lotTested src c id
    else if s.lotUnheld id then s.openRun src c (if l.hasWork then l else l.completePass max)
    else s.moveCell c fun x => { x with state := .paused }

/-- The open run of a cell closes (R108, R110); the cell is served if it is then IDLE. -/
def State.closeRun (s : State) (src : Option Port) (c : CellNo) (h : CloseHold) (reason : EndReason) : State :=
  match (s.cell c).bound with
  | none => s
  | some id =>
    let s := s.onCell c fun x => { x with run := none }
    let s := s.placeCloseHold src id h
    let s := s.placeCloseHold src id ((s.lot id).bind fun l => shortfall l reason)
    (s.afterClose src c id).serve src c

/-- The hold of a close that finds B at or above C (R106, R107). -/
def excessHold (binned count : Nat) : CloseHold :=
  if count < binned then some (excessArg, binned - count) else none

/-- The cell enters CLOSING (R107). -/
def State.enterClosing (s : State) (c : CellNo) : State :=
  s.moveCell c fun x =>
    { x with
      state := .closing,
      run := x.run.map fun r => { r with closeDeadline := some s.tables.parameters.close } }

/-- An accepted ERND is evaluated (R106); the outcome byte is CLOSED or CLOSING. -/
def State.evaluateEnd (s : State) (src : Option Port) (c : CellNo) (r : Run) (count : Nat)
    (reason : EndReason) : State × Byte :=
  let s := s.onCell c fun x =>
    { x with run := some { r with handlerCount := some count, endReason := some reason } }
  if r.binned < count then (s.enterClosing c, 2)
  else (s.closeRun src c (excessHold r.binned count) reason, 1)

/-- In CLOSING the run closes once B is at least C (R107, R124 step 4). -/
def State.testClose (s : State) (src : Option Port) (c : CellNo) : State :=
  match (s.cell c).state, (s.cell c).run with
  | .closing, some r =>
    match r.handlerCount, r.endReason with
    | some count, some reason =>
      if count ≤ r.binned then s.closeRun src c (excessHold r.binned count) reason else s
    | _, _ => s
  | _, _ => s

/-- The close deadline expires with B below C (R107). -/
def State.closeExpired (s : State) (src : Option Port) (c : CellNo) : State :=
  match (s.cell c).state, (s.cell c).run with
  | .closing, some r =>
    match r.handlerCount, r.endReason with
    | some count, some reason => s.closeRun src c (some (shortRunArg, count - r.binned)) reason
    | _, _ => s
  | _, _ => s

/-! ## Failures of a preparation (R97, R100) -/

/-- The program load has failed (R97). -/
def State.loadFailed (s : State) (src : Option Port) (c : CellNo) : State :=
  match s.boundLot c with
  | none => s
  | some l =>
    let program := (s.product l).program
    let s := s.onCell c fun x => { x with failed := some program, preparation := none }
    s.unbind src c l.id fun x => { x with state := .idle }

/-- The settle deadline has expired (R100). -/
def State.settleFailed (s : State) (src : Option Port) (c : CellNo) : State :=
  match s.boundLot c with
  | none => s
  | some l =>
    let s := s.onCell c fun x => { x with thermal := Thermal.clear, preparation := none }
    s.unbind src c l.id fun x => { x with state := .idle, mode := .maintenance }

/-! ## Becoming unheld (R148) -/

/-- A lot that has gone from held to unheld goes on from where it was stopped (R148; R111 for a PAUSED cell;
R158 for a failed sample whose QA hold had overflowed). -/
def State.becomeUnheld (s : State) (src : Option Port) (id : Id) : State :=
  match s.lot id with
  | none => s
  | some l =>
    match l.state with
    | .waiting => s.joinAndOffer src id
    | .bound => match l.cell with
      | some c => if (s.cell c).state = .paused then (s.goOn src c).serve src c else s
      | none => s
    | .tested => s.decideSample id
    | .sampling => if l.samplePending then s else s.placeHold src id .qa 0 l.rejects
    | .accepted | .released => s

end Sys2Proof.Machine
end

