-- ==== Sys2Proof/Machine/Formation.lean ====
section
/-! DEFINITION. Negotiation, formation, faults and member disturbances of a cell (chapter 3). -/

namespace Sys2Proof.Machine

/-! ## Entering OFFER (R38) -/

/-- A new negotiation record; the flags say which reports start marked received (R38, R39). -/
def Negotiation.fresh (handler tester : Bool) (timeout : Nat) : Negotiation :=
  ⟨handler, tester, false, false, none, timeout⟩

/-- NABQ for a member (R38, R51). -/
def State.query (s : State) (c : CellNo) (m : Option Id) : State := s.notifyMember m fun id => .nabq id c

/-- The cell enters OFFER (R38) and queries each member whose report is not marked received. -/
def State.enterOffer (s : State) (c : CellNo) (handler tester : Bool := false) : State :=
  let s := s.moveCell c fun x =>
    { x with
      state := .offer, fault := none,
      negotiation := some (Negotiation.fresh handler tester s.tables.parameters.negotiation) }
  let s := if handler then s else s.query c (s.cell c).handler
  if tester then s else s.query c (s.cell c).tester

/-- The cell enters FAULT with a reason (R43). -/
def State.enterFault (s : State) (c : CellNo) (reason : FaultReason) : State :=
  s.moveCell c fun x => { x with state := .fault, fault := some reason, negotiation := none }

/-! ## The proposed capability (R40) -/

/-- What the two abilities give together (R40). -/
def propose (h : HandlerAbility) (t : TesterAbility) : Capability :=
  ⟨h.families, h.bandMin, h.bandMax, h.kit, t.options, h.sites &&& t.sites⟩

/-- NCNF with the proposed capability (R40, R51). -/
def State.confirm (s : State) (c : CellNo) (m : Option Id) (cap : Capability) : State :=
  s.notifyMember m fun id => .ncnf id c cap

/-- Both reports of an OFFER have been received (R40). -/
def State.reported (s : State) (c : CellNo) : State :=
  match s.handlerAbility c, s.testerAbility c with
  | some h, some t =>
    let cap := propose h t
    if cap.sites = 0 then s.enterFault c .noSites
    else
      let s := s.moveCell c fun x =>
        { x with
          state := .confirm,
          negotiation := x.negotiation.map fun n =>
            { n with
              handlerAccepted := false, testerAccepted := false, proposed := some cap,
              deadline := s.tables.parameters.negotiation } }
      s.notifyMembers c fun id => .ncnf id c cap
  | _, _ => s

/-! ## Formation (R42) -/

/-- Formation succeeds with the proposed capability (R42). -/
def State.formed (s : State) (src : Option Port) (c : CellNo) (cap : Capability) : State :=
  let s := s.onCell c fun x =>
    { x with
      common := some cap, active := cap.sites, thermal := Thermal.clear, failed := none,
      negotiation := none }
  match s.boundLot c with
  | none => (s.moveCell c fun x => { x with state := .idle }).serve src c
  | some l =>
    if s.lotSuits l c then (s.prepare src c).serve src c
    else s.unbind src c l.id fun x => { x with state := .idle }

/-! ## Disturbances (R48 to R51) -/

/-- What disturbs a cell; the detail of the CELL hold (R138). -/
inductive Disturbance where
  | stale | reannounce
deriving DecidableEq, Repr

def Disturbance.detail : Disturbance → Nat
  | .stale => 1 | .reannounce => 2

/-- Both members of the cell are PRESENT. -/
def State.membersPresent (s : State) (c : CellNo) : Bool :=
  (((s.cell c).handler).map s.isPresent).getD false && (((s.cell c).tester).map s.isPresent).getD false

/-- The cell goes to LOST, or stays there (R49). -/
def State.enterLost (s : State) (c : CellNo) : State :=
  s.moveCell c fun x => { x with state := .lost, negotiation := none, fault := none }

/-- The cell's move on a disturbance (R49, R50). -/
def State.disturbMove (s : State) (c : CellNo) : Disturbance → State
  | .stale => s.enterLost c
  | .reannounce =>
    if (s.cell c).state = .lost ∧ !s.membersPresent c then s.enterLost c else s.enterOffer c

/-- A member disturbance (R48): the work in hand is ended, the cell moves, the bound lot is held. -/
def State.disturb (s : State) (src : Option Port) (c : CellNo) (d : Disturbance) : State :=
  if (s.cell c).state = .vacant then s
  else
    let s := s.onCell c fun x => { x with run := none, preparation := none }
    let s := s.disturbMove c d
    match (s.cell c).bound with
    | some id => s.placeHold src id .cell c.val d.detail
    | none => s

/-- A member return (R51). -/
def State.memberReturn (s : State) (c : CellNo) (id : Id) : State :=
  let x := s.cell c
  match x.state, x.negotiation with
  | .lost, _ => if s.membersPresent c then s.enterOffer c else s
  | .offer, some n =>
    if (x.handler = some id ∧ n.handlerReported) ∨ (x.tester = some id ∧ n.testerReported) then s
    else s.query c (some id)
  | .confirm, some n =>
    if (x.handler = some id ∧ n.handlerAccepted) ∨ (x.tester = some id ∧ n.testerAccepted) then s
    else match n.proposed with
      | some cap => s.confirm c (some id) cap
      | none => s
  | _, _ => s

/-! ## Undocking (R52) -/

/-- The memberships of both members are cleared (R30, R52 step 2). -/
def State.clearMembership (s : State) (m : Option Id) : State :=
  match m with
  | some id => s.onEquip id fun e => { e with membership := none }
  | none => s

/-- The cell is dissolved (R52). The lot's unbinding, the memberships and NDIS reach different records and
ports, so what they leave does not depend on their order. -/
def State.undock (s : State) (src : Option Port) (c : CellNo) : State :=
  let x := s.cell c
  let s := (s.clearMembership x.handler).clearMembership x.tester
  let s := s.notifyMembers c fun id => .ndis id c
  match x.bound with
  | some id => s.unbind src c id fun _ => Cell.vacant
  | none => s.moveCell c fun _ => Cell.vacant

end Sys2Proof.Machine
end

