-- ==== Sys2Proof/Machine/Windows.lean ====
section
/-! DEFINITION. Windows, gates and the period minute (chapter 10). -/

namespace Sys2Proof.Machine

/-- An entry is enabled when its start differs from its end (R175). -/
def Window.enabled (w : Window) : Bool := w.start ≠ w.stop

/-- The open test of an enabled entry (R175); a wrapping entry runs across the return of M to 0. -/
def Window.openAt (w : Window) (m : Nat) : Bool :=
  if w.start < w.stop then w.start ≤ m && m < w.stop
  else w.stop < w.start && (w.start ≤ m || m < w.stop)

/-- The state of the gate of a kind at period minute `m` (R176). -/
def gateAt (windows : List Window) (kind : WindowKind) (m : Nat) : GateState :=
  let ws := windows.filter fun w => w.kind = kind && w.enabled
  if ws.isEmpty then .ungated
  else if ws.any fun w => w.openAt m then .opened
  else .closed

/-- A change from one gate state to another is an opening, or a closing (R177). -/
def isOpening (was now : GateState) : Bool := was = .closed && now ≠ .closed
def isClosing (was now : GateState) : Bool := was ≠ .closed && now = .closed

/-- The dispatcher takes a change of its gate (R84, R177). -/
def State.deliverDispatch (s : State) (src : Option Port) (was now : GateState) : State :=
  if isOpening was now then s.serveIdle src else s

/-- The release unit takes a change of its gate (R163, R177). -/
def State.deliverRelease (s : State) (was now : GateState) : State :=
  if isOpening was now then (s.offerAll .offered).attentionTest
  else if isClosing was now then s.offerAll .queued
  else s

/-- Both gates are evaluated on the window table and M, recorded, and their changes delivered (R176, R177).
DESIGN CHOICE (log 5): the dispatcher's delivery comes first. -/
def State.evaluateGates (s : State) (src : Option Port) : State :=
  let windows := s.tables.windows.toList
  let d := gateAt windows .dispatch s.clock.minute
  let r := gateAt windows .release s.clock.minute
  let s' := { s with clock := { s.clock with dispatchGate := d, releaseGate := r } }
  (s'.deliverDispatch src s.clock.dispatchGate d).deliverRelease s.clock.releaseGate r

/-- M becomes 0 when it is above P (R172, R179). -/
def State.clampMinute (s : State) : State :=
  if s.tables.parameters.period < s.clock.minute then { s with clock := { s.clock with minute := 0 } } else s

/-- P has changed, or tables have been installed: M is clamped and the gates are evaluated (R172, R179,
R186). -/
def State.periodChanged (s : State) (src : Option Port) : State := s.clampMinute.evaluateGates src

/-- The period minute after the next (R172). -/
def nextMinute (period m : Nat) : Nat := if m = period then 0 else m + 1

/-- The mark is compared with the new M (R178). -/
def State.fireMark (s : State) : State :=
  if s.tables.parameters.mark = some s.clock.minute then
    s.notify hostPort (.nmrk s.clock.stamp s.clock.minute)
  else s

/-- A minute tick (R171): the stamp and M advance, the dispatcher recomputes (R77), the gates are evaluated
unless a start-up load is running (R179), and the mark is compared. DESIGN CHOICE (log 5): NMRK is placed
after the deliveries to the dispatcher and the release unit. -/
def State.minute (s : State) : State :=
  let s := { s with
    clock := { s.clock with
      stamp := s.clock.stamp + 1,
      minute := nextMinute s.tables.parameters.period s.clock.minute } }
  let s := s.recompute
  let s := if s.configState = .loading then s else s.evaluateGates none
  s.fireMark

/-! ## Resets and loads (R19, R179, R183, R184, R194) -/

/-- What a power-on reset and FLOOR RESET both do to the records behind the ports: every table of records
emptied, the gates recorded UNGATED, the state LOADING. -/
def State.clearRecords (s : State) : State :=
  { s with
    equipment := Vector.replicate 48 none
    cells := Vector.replicate 16 Cell.vacant
    lots := []
    sequence := 1
    queue := []
    holds := []
    shipments := []
    armed := true
    clock := { s.clock with dispatchGate := .ungated, releaseGate := .ungated }
    configState := .loading
    storeJob := none
    due := [] }

/-- FRST acts (R194): the ports as R19 states, the records cleared; the clock's counts and the tables stay. -/
def State.floorReset (s : State) : State :=
  { s.clearRecords with ports := Vector.ofFn fun p => s.ports[p].floorReset }

/-- What a store write that a power-on reset cuts leaves in the store (R193). -/
def Store.cut (st : Store) (tables : Tables) : WriteCut → Store
  | .beforeMarker => st
  | .afterMarkerGood => ⟨true, true, tables⟩
  | .afterMarkerBad => ⟨true, false, tables⟩

/-- A power-on reset (R19, R179, R184, R193): everything as at `State.reset` but the external store and the
commands that wait. -/
def State.powerOn (s : State) (cut : WriteCut) : State :=
  { State.reset with
    store := if s.storeJob = some .write then s.store.cut s.tables cut else s.store
    pending := s.pending }

/-- The store holds a good set and answers (R184 steps 1 and 2). -/
def Store.loads (st : Store) : StoreReply → Bool
  | .answers => st.marker && st.crcGood
  | .silent => false

/-- The start-up load ends (R184): the tables are installed or cleared, the state is set, and the floor clock
takes the end of the load (R179). A request taken into service before this moment is answered BUSY even when its
command comes after it. -/
def State.endLoad (s : State) (reply : StoreReply) : State :=
  let s := s.onPorts PortUnit.loadEnds
  let s :=
    if s.store.loads reply then { s with tables := s.store.tables, configState := .configured }
    else { s with tables := Tables.cleared, configState := .unconfigured }
  s.periodChanged none

end Sys2Proof.Machine
end

