-- ==== Sys2Proof/Machine/Ticks.lean ====
section
/-! DEFINITION. The seconds tick and the events it brings about (R27, R28, R99, R170, R173).

A seconds tick lowers the deadlines and advances the ages, and lists in `due` the events that it brings
about. Each is taken by its own command, in any order among themselves, as the rules leave open (R101, R29);
`State.settle` takes those still listed before any other command, so that a tick and its events fall wholly
before or wholly after every request (R23, R180). -/

namespace Sys2Proof.Machine

/-! ## The tick itself -/

/-- Every running deadline of a cell is lowered, and the soak of a cell whose handler has reached the set
point advances (R99, R170). -/
def Cell.tick (x : Cell) : Cell :=
  { x with
    negotiation := x.negotiation.map fun n => { n with deadline := n.deadline - 1 }
    preparation := x.preparation.map fun p =>
      { p with
        loadDeadline := p.loadDeadline.map fun d => d - 1
        settleDeadline := p.settleDeadline.map fun d => d - 1 }
    run := x.run.map fun r => { r with closeDeadline := r.closeDeadline.map fun d => d - 1 }
    thermal :=
      if x.thermal.reached then { x.thermal with soak := min Config.soakLimit (x.thermal.soak + 1) }
      else x.thermal }

/-- An entry's age advances (R27). -/
def Entry.tick (e : Entry) : Entry := { e with age := min Config.saturation (e.age + 1) }

/-- The negotiation deadline has reached 0 (R43, R173). -/
def Cell.negotiationExpired (x : Cell) : Bool :=
  (x.state = .offer || x.state = .confirm) && (x.negotiation.map fun n => n.deadline) = some 0

/-- The load deadline has reached 0 (R97, R173). -/
def Cell.loadExpired (x : Cell) : Bool :=
  x.state = .preparing && (x.preparation.bind fun p => p.loadDeadline) = some 0

/-- The settle deadline has reached 0 (R100, R173). -/
def Cell.settleExpired (x : Cell) : Bool :=
  x.state = .preparing && (x.preparation.bind fun p => p.settleDeadline) = some 0

/-- The close deadline has reached 0 (R107, R173). -/
def Cell.closeExpired (x : Cell) : Bool :=
  x.state = .closing && (x.run.bind fun r => r.closeDeadline) = some 0

/-- A SOAKING preparation whose soak elapsed is at least the product's soak time (R99). -/
def State.soakOver (s : State) (c : CellNo) : Bool :=
  (s.cell c).state = .preparing
    && ((s.cell c).preparation.map fun p => p.thermal) = some .soaking
    && ((s.boundLot c).map fun l => decide ((s.product l).soakTime ≤ (s.cell c).thermal.soak)).getD false

/-- A PRESENT entry whose age has reached A (R27). -/
def Entry.goesStale (aging : Nat) (e : Entry) : Bool := aging ≠ 0 && e.state = .present && aging ≤ e.age

/-- An entry without a membership whose age has reached 2A (R28); it is STALE, or goes STALE at this tick. -/
def Entry.goesAway (aging : Nat) (e : Entry) : Bool :=
  aging ≠ 0 && e.membership.isNone && 2 * aging ≤ e.age

/-- The expiries and the soak end that a tick has brought about at a cell. -/
def State.cellDue (s : State) (c : CellNo) : List Due :=
  (if (s.cell c).negotiationExpired then [.negotiation c] else [])
    ++ (if (s.cell c).loadExpired then [.load c] else [])
    ++ (if (s.cell c).settleExpired then [.settle c] else [])
    ++ (if (s.cell c).closeExpired then [.close c] else [])
    ++ (if s.soakOver c then [.soak c] else [])

/-- The stale entries and the removals that a tick has brought about. -/
def State.entryDue (s : State) (i : Position) : List Due :=
  match s.entry i with
  | some e =>
    (if e.goesStale s.tables.parameters.aging then [.stale i] else [])
      ++ (if e.goesAway s.tables.parameters.aging then [.removal i] else [])
  | none => []

/-- A seconds tick (R170): deadlines, soaks, ages and the seconds count, and the list of what it brings
about. A count of 59 returns to 0, and the tick is also a minute tick. DESIGN CHOICE (log 32): every deadline, soak
and age takes the tick before any other event of the tick acts, so a deadline that such an event starts is not
lowered by this tick. -/
def State.second (s : State) : State :=
  let wraps := s.clock.seconds = 59
  let s := { s with
    cells := Vector.ofFn fun c => s.cells[c].tick
    equipment := Vector.ofFn fun i => s.equipment[i].map Entry.tick
    clock := { s.clock with seconds := if wraps then 0 else s.clock.seconds + 1 } }
  { s with
    due := (List.finRange 16).flatMap s.cellDue ++ (List.finRange 48).flatMap s.entryDue
      ++ (if wraps then [.minute] else []) }

/-! ## Its events -/

/-- The soak has come to its end (R99). -/
def State.endSoak (s : State) (c : CellNo) : State :=
  if s.soakOver c then
    let s := s.onCell c fun x =>
      { x with preparation := x.preparation.map fun p => { p with thermal := .done } }
    (s.testPreparation none c).serve none c
  else s

/-- A PRESENT entry becomes STALE, and a member's cell is told (R27, R29). -/
def State.goStale (s : State) (i : Position) : State :=
  match s.entry i with
  | some e =>
    if e.goesStale s.tables.parameters.aging then
      let s := s.setEntry i (some { e with state := .stale })
      match e.membership with
      | some c => s.disturb none c .stale
      | none => s
    else s
  | none => s

/-- A STALE entry without a membership is removed (R28). -/
def State.removeEntry (s : State) (i : Position) : State :=
  match s.entry i with
  | some e => if e.state = .stale ∧ e.goesAway s.tables.parameters.aging then s.setEntry i none else s
  | none => s

/-- Take one listed event. An event whose ground has gone since the tick (a deadline that went with its
record, R101) does not occur. -/
def State.takeDue (s : State) : Due → State
  | .negotiation c => if (s.cell c).negotiationExpired then s.enterFault c .timeout else s
  | .load c => if (s.cell c).loadExpired then s.loadFailed none c else s
  | .settle c => if (s.cell c).settleExpired then s.settleFailed none c else s
  | .close c => if (s.cell c).closeExpired then s.closeExpired none c else s
  | .soak c => s.endSoak c
  | .stale i => s.goStale i
  | .removal i => s.removeEntry i
  | .minute => s.minute
  | .floorReset => s.floorReset

/-- Take every listed event, in the order listed. DESIGN CHOICE (log 4): the order is the default for events
that no command has taken; a sender that sends their commands takes them in any order. -/
def State.settle (s : State) : State := s.due.foldl State.takeDue { s with due := [] }

/-- The command of a listed event takes it off the list and carries it out; an event that is not listed does
not occur, and its command changes nothing (log 3). -/
def State.takeListed (s : State) (d : Due) : State :=
  if d ∈ s.due then { s with due := s.due.erase d }.takeDue d else s

end Sys2Proof.Machine
end

