-- ==== Sys2Proof/Machine/Requests.lean ====
section
/-! DEFINITION. The examination of a request in service (R8), the sender's check and refresh (R23, R24), and
the hand-over to the block that owns the record (R7). -/

namespace Sys2Proof.Machine

/-- The ports on which a request is permitted (R18). -/
def Req.permitted (r : Req) (p : Port) : Bool :=
  match r with
  | .qlot | .hold | .hclr => supervisor p
  | .qres | .rlse => p = qaPort
  | .eann | .eabl | .ecnf | .epld | .eldf | .etmp | .ernd | .ebin => !supervisor p
  | .sens | .psta => true
  | .lent | .lrem | .lpri | .lsht | .hovc | .cdck | .cund | .crdk | .cmod | .csen | .qcel | .cunb | .qeqp
  | .stak | .sarm | .clks | .wprd | .wbpl | .wpar | .wwin | .crdy | .csav | .frst => p = hostPort

/-- A refresh: age 0, PRESENT, the arrival port (R24). -/
def Entry.refreshed (e : Entry) (p : Port) : Entry := { e with age := 0, state := .present, port := p }

/-- The cell that a refresh of this entry reports a member return to: a STALE entry with a membership (R24,
R29). -/
def Entry.returnsTo (e : Entry) : Option CellNo := if e.state = .stale then e.membership else none

/-- The report of a member return, where there is one (R29). -/
def State.reportReturn (s : State) (c : Option CellNo) (id : Id) : State :=
  match c with
  | some c => s.memberReturn c id
  | none => s

/-- What the block that owns the record makes of a request: the frame, the fields read from it, the state,
and the outcome. -/
abbrev Owner (α : Type) := Frame → α → State → State × Reply

/-- The outcome of the owner is answered on the arrival port. -/
def State.carryOut {α : Type} (s : State) (p : Port) (r : Req) (owner : Owner α) (f : Frame) (a : α) : State :=
  ((owner f a s).1).answer p (some r) (owner f a s).2

/-- A request refused with a sense code. -/
def State.refuse (s : State) (p : Port) (r : Req) (code : SenseCode) (a : BitVec 32) : State :=
  s.answer p (some r) (.check code a)

/-- Steps 5 and 6 of R8 for a request that no entry is refreshed by: one from a supervisor's port, and EANN. -/
def State.checkFields {α : Type} (s : State) (p : Port) (r : Req) (read : List Byte → Checked α)
    (owner : Owner α) (f : Frame) : State :=
  match read f.payload with
  | .error offset => s.refuse p r .field (arg offset)
  | .ok a => s.carryOut p r owner f a

/-- Steps 5 and 6 of R8 for a known sender (R24): a FIELD refusal refreshes the entry; otherwise the refresh
comes before the owner acts, and a member return is reported after it. No owner answers BUSY to a request
that R18 permits on an equipment port, so R24's case of BUSY does not arise. -/
def State.checkKnown {α : Type} (s : State) (p : Port) (r : Req) (read : List Byte → Checked α)
    (owner : Owner α) (f : Frame) (i : Position) (e : Entry) : State :=
  let s := s.setEntry i (some (e.refreshed p))
  match read f.payload with
  | .error offset => (s.reportReturn e.returnsTo e.id).refuse p r .field (arg offset)
  | .ok a => (((owner f a s).1).reportReturn e.returnsTo e.id).answer p (some r) (owner f a s).2

/-- The check of an equipment port's sender (R8 step 4, R23). -/
def State.checkSender {α : Type} (s : State) (p : Port) (r : Req) (read : List Byte → Checked α)
    (owner : Owner α) (f : Frame) : State :=
  if f.source = 0 then s.refuse p r .field 4
  else
    match s.find f.source with
    | none =>
      if r = .eann then s.checkFields p r read owner f else s.refuse p r .unknownEquipment f.source
    | some (i, e) =>
      if e.port ≠ p ∧ Config.entriesPerPort ≤ s.portCount p then s.refuse p r .tableFull 0
      else if r = .eann then s.checkFields p r read owner f
      else s.checkKnown p r read owner f i e

/-- The start-up check of R8: the request was taken into service while a start-up load lasted (R184), which runs
still, or has ended since. DEDUCED (log 34): an FRST during the load is answered BUSY START-UP like every other
request. -/
def State.startsUp (s : State) (v : Service) : Bool := s.configState = .loading || v.progress = .takenInLoad

/-- The checks of R8 in their order, for a request in service whose code is known. -/
def State.examine {α : Type} (s : State) (p : Port) (r : Req) (read : List Byte → Checked α)
    (owner : Owner α) (v : Service) : State :=
  let f := v.frame
  if s.startsUp v then s.answerStartUp p (some r)
  else if !r.permitted p then s.refuse p r .notPermitted (arg p.val)
  else if supervisor p then
    if f.source ≠ 0 then s.refuse p r .field 4 else s.checkFields p r read owner f
  else s.checkSender p r read owner f

/-- The request in service on a port that has not been examined yet (R7). -/
def State.taken (s : State) (p : Port) : Option Service :=
  match (s.port p).service with
  | some v => if v.progress = .taken ∨ v.progress = .takenInLoad then some v else none
  | none => none

/-- A request's command: when the request in service on the port is of this row and not yet examined, it is
examined and carried out. A command whose request is not in service is no event of the part and changes
nothing but that listed events are taken first (log 3). -/
def State.request {α : Type} (s : State) (p : Port) (r : Req) (mine : List Byte → Bool)
    (read : List Byte → Checked α) (owner : Owner α) : State :=
  let s := s.settle
  match s.taken p with
  | some v =>
    if Req.ofCode v.frame.code = some r ∧ mine v.frame.payload then s.examine p r read owner v else s
  | none => s

/-- Every payload belongs to the row. -/
def anyPayload (_ : List Byte) : Bool := true

end Sys2Proof.Machine
end

