-- ==== Sys2Proof/Machine/LotRequests.lean ====
section
/-! DEFINITION. The lot requests (chapter 4): LENT, LREM, LPRI, LSHT and QLOT in its four views. -/

namespace Sys2Proof.Machine

/-! ## LENT (R62 to R64) -/

/-- A restore part is consistent (R63). -/
def Restore.consistent (r : Restore) (started maxRetests : Nat) (p : BinPlan) : Bool :=
  r.final.total + r.pool.total = r.tested
    && r.tested + r.lost ≤ started
    && (List.finRange 16).all (fun b => p[b].cls = .retest || r.pool[b] = 0)
    && r.pass ≤ maxRetests
    && (r.pass = 0 || r.tested + r.lost = started)

/-- A lot record at entry, its restore part put in (R64). -/
def LentFields.entered (f : LentFields) (sequence stamp : Stamp) : Lot where
  id := f.lot
  product := f.product
  cls := f.cls
  basePriority := f.basePriority
  sequence := sequence
  joinStamp := stamp
  state := .waiting
  cell := none
  pass := (f.restore.map Restore.pass).getD 0
  runCount := 0
  started := f.started
  tested := (f.restore.map Restore.tested).getD 0
  lost := (f.restore.map Restore.lost).getD 0
  rejects := 0
  final := (f.restore.map Restore.final).getD Bins.zero
  poolNow := match f.restore with
    | some r => if r.pass = 0 then Bins.zero else r.pool
    | none => Bins.zero
  poolNext := match f.restore with
    | some r => if r.pass = 0 then r.pool else Bins.zero
    | none => Bins.zero
  sampleSize := none
  holdCount := 0
  overflow := false
  samplePending := false

/-- A restored lot whose pass is complete goes through pass completion (R64): in pass 0 with T1 + D = S it may
go on to a retest; in a later pass its zero pool closes. A lot entered without a restore part has units to
test. -/
def Lot.settledEntry (l : Lot) (restored : Bool) (maxRetests : Nat) : Lot :=
  if restored && !l.hasWork then
    if l.retests maxRetests then l.completePass maxRetests
    else { l.completePass maxRetests with state := .tested }
  else l

/-- The entry counter's next value: from 4,294,967,295 it returns to 1 (R60). -/
def nextSequence (n : Stamp) : Stamp := if n + 1 = 0 then 1 else n + 1

/-- The new record joins the table, its NLOT is made, and the lot goes on by its state (R64). -/
def State.enterLot (s : State) (src : Option Port) (l : Lot) : State :=
  let s := { s with lots := s.lots ++ [l], sequence := nextSequence s.sequence }
  let s := s.nlot l.id .entered
  if l.state = .tested then (s.checkRatios src l.id).decideSample l.id else s.joinAndOffer src l.id

/-- The state byte of a lot in response data; a lot that is gone shows as FREED. -/
def State.lotStateOf (s : State) (id : Id) : List Byte := [lotStateByte ((s.lot id).map Lot.state)]

/-- LENT taken while CONFIGURED (R62, R64). The product field is at frame offset 12. -/
def lentConfigured : Owner LentFields := fun _ a s =>
  let p := s.tables.products[a.product]
  if !p.defined then (s, .check .field 12)
  else if (s.lot a.lot).isSome then (s, .check .duplicateLot a.lot)
  else if (a.restore.map fun r => r.consistent a.started p.maxRetests (s.plan p)) = some false then
    (s, .check .inconsistent a.lot)
  else if Config.lotRoom ≤ s.lots.length then (s, .check .lotTableFull 0)
  else
    let l := (a.entered s.sequence s.clock.stamp).settledEntry a.restore.isSome p.maxRetests
    let s := s.enterLot (some hostPort) l
    (s, .good (be32 l.sequence ++ be 1 (((s.lot a.lot).map Lot.pass).getD 0) ++ s.lotStateOf a.lot))

/-- A request that first waits for a re-attempt of the store load while UNCONFIGURED (R186). -/
def afterReattempt {α : Type} (owner : Owner α) : Owner α := fun f a s =>
  if s.configState = .unconfigured then ({ s with storeJob := some .reattempt }, .wait) else owner f a s

/-- LENT (R64). -/
def execLent (p : Port) (s : State) : Host.Outcome State Fault Refusal :=
  .next (s.request p .lent anyPayload readLent (afterReattempt lentConfigured))

/-! ## LREM (R65) -/

/-- The lot's records and the lot leave the tables, and an NLOT shows it FREED (R59, R65, R73, R149). DESIGN
CHOICE (log 8): the NLOT of a freed lot shows hold count 0 and the overflow flag its record held. -/
def State.freeLot (s : State) (l : Lot) (cause : Cause) : State :=
  let s := (s.leaveQueue l.id).removeHoldsOf l.id
  let s := { s with lots := s.lots.filter fun x => x.id ≠ l.id }
  s.notify hostPort (.nlot l.id none 0 l.overflow cause none)

def lremOwner : Owner Id := fun _ id s =>
  match s.lot id with
  | none => (s, .check .unknownLot id)
  | some l =>
    if l.state = .bound ∨ l.state = .released then (s, .check .wrongState id)
    else (s.freeLot l .removed, .good [])

/-- LREM (R65). -/
def execLrem (p : Port) (s : State) : Host.Outcome State Fault Refusal :=
  .next (s.request p .lrem anyPayload readLotId lremOwner)

/-! ## LPRI (R66) -/

/-- LPRI carried out (R66). DESIGN CHOICE (log 33): the effective priority in the data is taken after the offer, so it
is absent when the offer has bound the lot. -/
def lpriOwner : Owner (Id × Nat) := fun _ a s =>
  match s.lot a.1 with
  | none => (s, .check .unknownLot a.1)
  | some _ =>
    let s := s.onLot a.1 fun l => { l with basePriority := a.2 }
    let s := if s.inQueue a.1 then (s.recomputeLot a.1).offer (some hostPort) a.1 else s
    (s, .good (be 1 a.2 ++ optional 1 ((s.priorityOf a.1).map (be 1))))

/-- LPRI (R66). -/
def execLpri (p : Port) (s : State) : Host.Outcome State Fault Refusal :=
  .next (s.request p .lpri anyPayload readLpri lpriOwner)

/-! ## LSHT (R67) -/

/-- D becomes S - T1 (R67 step 1). -/
def Lot.declareShort (l : Lot) : Lot := { l with lost := l.started - l.tested }

/-- LSHT carried out (R67). DESIGN CHOICE (log 33): k and the state in the data are taken after the sample
decision. -/
def lshtOwner : Owner Id := fun _ id s =>
  match s.lot id with
  | none => (s, .check .unknownLot id)
  | some l =>
    if l.state = .bound ∨ l.tested + l.lost = l.started then (s, .check .wrongState id)
    else
      let max := (s.product l).maxRetests
      let s := s.onLot id fun l => l.declareShort.completePass max
      let s :=
        if l.declareShort.retests max then s
        else
          let s := (s.onLot id fun l => { l with state := .tested }).leaveQueue id
          ((s.nlot id .tested).checkRatios (some hostPort) id).decideSample id
      (s, .good (be 2 l.declareShort.lost ++ be 1 (((s.lot id).map Lot.pass).getD 0) ++ s.lotStateOf id))

/-- LSHT (R67). -/
def execLsht (p : Port) (s : State) : Host.Outcome State Fault Refusal :=
  .next (s.request p .lsht anyPayload readLotId lshtOwner)

/-! ## QLOT (R68 to R70) -/

def qlotSummaryOwner : Owner Id := fun _ id s =>
  match s.lot id with
  | none => (s, .check .unknownLot id)
  | some l => (s, .good (l.summary (s.priorityOf id) (s.shipment id)))

/-- QLOT in view SUMMARY (R68). -/
def execQlotSummary (p : Port) (s : State) : Host.Outcome State Fault Refusal :=
  .next (s.request p .qlot (fun b => viewOf b = .summary) readQlotLot qlotSummaryOwner)

def qlotCountsOwner : Owner Id := fun _ id s =>
  match s.lot id with
  | none => (s, .check .unknownLot id)
  | some l => (s, .good l.counts)

/-- QLOT in view COUNTS (R68). -/
def execQlotCounts (p : Port) (s : State) : Host.Outcome State Fault Refusal :=
  .next (s.request p .qlot (fun b => viewOf b = .counts) readQlotLot qlotCountsOwner)

/-- The hold records that QLOT view HOLDS returns from a start index (R69). -/
def State.holdPage (s : State) (id : Id) (start : Nat) : List HoldRecord :=
  ((s.holdsOf id).drop start).take Config.holdsPerResponse

def qlotHoldsOwner : Owner (Id × Nat) := fun _ a s =>
  match s.lot a.1 with
  | none => (s, .check .unknownLot a.1)
  | some l =>
    let page := s.holdPage a.1 a.2
    (s, .good (be 1 l.holdCount ++ flag l.overflow ++ be 1 page.length ++ page.flatMap HoldRecord.bytes))

/-- QLOT in view HOLDS (R69). -/
def execQlotHolds (p : Port) (s : State) : Host.Outcome State Fault Refusal :=
  .next (s.request p .qlot (fun b => viewOf b = .holds) readQlotHolds qlotHoldsOwner)

/-- The lots that QLOT view LIST returns from a start sequence (R70). DESIGN CHOICE (log 31): of two lots with one
entry sequence, which a return of the counter to 1 makes possible, the one entered earlier is listed first. -/
def State.lotPage (s : State) (start : Stamp) : List Lot :=
  (sortBy (fun a b => a.sequence.toNat < b.sequence.toNat)
    (s.lots.filter fun l => start.toNat ≤ l.sequence.toNat)).take Config.lotsPerResponse

def qlotListOwner : Owner Stamp := fun _ start s =>
  let page := s.lotPage start
  (s, .good (be 2 s.lots.length ++ be 1 page.length
    ++ page.flatMap fun l => be32 l.id ++ be32 l.sequence))

/-- QLOT in view LIST (R70). -/
def execQlotList (p : Port) (s : State) : Host.Outcome State Fault Refusal :=
  .next (s.request p .qlot (fun b => viewOf b = .list) readQlotList qlotListOwner)

end Sys2Proof.Machine
end

