-- ==== Sys2Proof/Machine/HoldRequests.lean ====
section
/-! DEFINITION. The hold requests (chapter 8): HOLD, HCLR and HOVC. -/

namespace Sys2Proof.Machine

/-- The hold count, overflow flag and state of a lot, as HOLD and HCLR answer them (R141, R146). -/
def State.holdStatus (s : State) (id : Id) : List Byte :=
  be 1 (((s.lot id).map Lot.holdCount).getD 0) ++ flag (((s.lot id).map Lot.overflow).getD false)
    ++ s.lotStateOf id

/-- The kind and argument of a HOLD: OPERATOR with the note code from port 0, QA with 0 from port 1 (R141). -/
def holdKey (p : Port) (note : Nat) : HoldKind × Nat :=
  if p = hostPort then (.operator, note) else (.qa, 0)

/-- HOLD carried out for port `p` (R141). -/
def holdOwner (p : Port) : Owner (Id × Nat) := fun _ a s =>
  let key := holdKey p a.2
  match s.lot a.1 with
  | none => (s, .check .unknownLot a.1)
  | some _ =>
    if s.hasHold a.1 key.1 key.2 then (s, .good (2 :: s.holdStatus a.1))
    else if s.holdsFull then (s, .check .holdTableFull 0)
    else
      let s := s.appendHold ⟨a.1, key.1, key.2, 0, some p, s.clock.stamp, a.2⟩
      (s, .good (1 :: s.holdStatus a.1))

/-- HOLD (R141). -/
def execHold (p : Port) (s : State) : Host.Outcome State Fault Refusal :=
  .next (s.request p .hold anyPayload readHold (holdOwner p))

/-- The port that clears holds of a kind (R138). -/
def HoldKind.owner : HoldKind → Port
  | .qa => qaPort
  | .operator | .yield | .bin | .site | .reconcile | .cell => hostPort

/-- The disposition fits the lot's position (R147). -/
def dispositionFits (l : Lot) (d : Disposition) : Bool :=
  if l.state = .sampling && !l.samplePending then d ≠ .none else d = .none

/-- The disposition of a QA hold acts on the lot (R147). -/
def State.dispose (s : State) (id : Id) : Disposition → State
  | .none => s
  | .accept => (s.onLot id fun l => { l with state := .accepted }).nlot id .accepted
  | .resample => (s.onLot id fun l => { l with state := .tested, rejects := 0 }).nlot id .resample

/-- HCLR carried out for port `p` (R145, R146). -/
def hclrOwner (p : Port) : Owner HclrFields := fun _ a s =>
  match s.lot a.lot with
  | none => (s, .check .unknownLot a.lot)
  | some l =>
    if p ≠ a.kind.owner then (s, .check .notOwner a.lot)
    else if !s.hasHold a.lot a.kind a.arg then (s, .check .noHold a.lot)
    else if a.kind = .qa ∧ !dispositionFits l a.disposition then (s, .check .wrongState a.lot)
    else
      let s := (s.removeHold a.lot a.kind a.arg).nlot a.lot .holdCleared (some (a.kind, a.arg))
      let s := s.dispose a.lot a.disposition
      let s := if s.lotUnheld a.lot then s.becomeUnheld (some p) a.lot else s
      (s, .good (s.holdStatus a.lot))

/-- HCLR (R145). -/
def execHclr (p : Port) (s : State) : Host.Outcome State Fault Refusal :=
  .next (s.request p .hclr anyPayload readHclr (hclrOwner p))

def hovcOwner : Owner Id := fun _ id s =>
  match s.lot id with
  | none => (s, .check .unknownLot id)
  | some l =>
    if !l.overflow then (s, .check .noHold id)
    else
      let s := (s.onLot id fun l => { l with overflow := false }).nlot id .overflowCleared
      let s := if s.lotUnheld id then s.becomeUnheld (some hostPort) id else s
      (s, .good (be 1 (((s.lot id).map Lot.holdCount).getD 0) ++ s.lotStateOf id))

/-- HOVC (R142). -/
def execHovc (p : Port) (s : State) : Host.Outcome State Fault Refusal :=
  .next (s.request p .hovc anyPayload readLotId hovcOwner)

end Sys2Proof.Machine
end

