-- ==== Sys2Proof/Machine/CellRequests.lean ====
section
/-! DEFINITION. The floor host's cell requests (chapters 3 and 5): CDCK, CUND, CRDK, CMOD, CSEN, QCEL and
CUNB. -/

namespace Sys2Proof.Machine

/-- A cell in OFFER or CONFIRM answers the floor host BUSY (R44). -/
def Cell.negotiating (x : Cell) : Bool := x.state = .offer || x.state = .confirm

/-- The first check of the entry of a cell's would-be member that fails (R37 steps 2 and 3). -/
def State.memberFault (s : State) (id : Id) (kind : EquipKind) : Option Reply :=
  match s.equip id with
  | none => some (.check .unknownEquipment id)
  | some e =>
    if e.state = .stale then some (.check .unknownEquipment id)
    else if e.ability.kind ≠ kind then some (.check .kindMismatch id)
    else none

/-- The entry already has a cell membership (R37 step 4). -/
def State.memberTaken (s : State) (id : Id) : Option Reply :=
  if ((s.equip id).bind fun e => e.membership).isSome then some (.check .equipmentInUse id) else none

/-- The two entries become members and the cell enters OFFER (R30, R37). -/
def State.dock (s : State) (c : CellNo) (handler tester : Id) : State :=
  let s := s.onEquip handler fun e => { e with membership := some c }
  let s := s.onEquip tester fun e => { e with membership := some c }
  let s := s.onCell c fun x =>
    { x with handler := some handler, tester := some tester, mode := .maintenance }
  s.enterOffer c

/-- CDCK taken while CONFIGURED (R37). -/
def cdckConfigured : Owner (CellNo × Id × Id) := fun _ a s =>
  let (c, handler, tester) := a
  if (s.cell c).negotiating then (s, .busy)
  else if (s.cell c).state ≠ .vacant then (s, .check .cellState (arg c.val))
  else
    match ((s.memberFault handler .handler).or (s.memberFault tester .tester)).or
        ((s.memberTaken handler).or (s.memberTaken tester)) with
    | some reply => (s, reply)
    | none => (s.dock c handler tester, .good [])

/-- CDCK (R37). -/
def execCdck (p : Port) (s : State) : Host.Outcome State Fault Refusal :=
  .next (s.request p .cdck anyPayload readCdck (afterReattempt cdckConfigured))

def cundOwner : Owner CellNo := fun _ c s =>
  if (s.cell c).negotiating then (s, .busy)
  else match (s.cell c).state with
    | .idle | .paused | .lost | .fault => (s.undock (some hostPort) c, .good [])
    | _ => (s, .check .cellState (arg c.val))

/-- CUND (R52). -/
def execCund (p : Port) (s : State) : Host.Outcome State Fault Refusal :=
  .next (s.request p .cund anyPayload readCell cundOwner)

def crdkOwner : Owner CellNo := fun _ c s =>
  if (s.cell c).negotiating then (s, .busy)
  else match (s.cell c).state with
    | .fault | .lost => (s.enterOffer c, .good [])
    | _ => (s, .check .cellState (arg c.val))

/-- CRDK (R53). -/
def execCrdk (p : Port) (s : State) : Host.Outcome State Fault Refusal :=
  .next (s.request p .crdk anyPayload readCell crdkOwner)

/-- The mode changes that CMOD makes (R45): to or from MAINTENANCE, and to another mode only. -/
def modeChange (was now : Mode) : Bool := was ≠ now && (was = .maintenance || now = .maintenance)

def cmodOwner : Owner (CellNo × Mode) := fun _ a s =>
  let (c, mode) := a
  if (s.cell c).negotiating then (s, .busy)
  else if (s.cell c).state ≠ .idle then (s, .check .cellState (arg c.val))
  else if !modeChange (s.cell c).mode mode then (s, .check .wrongMode (arg c.val))
  else ((s.moveCell c fun x => { x with mode := mode }).serve (some hostPort) c, .good [])

/-- CMOD (R45). -/
def execCmod (p : Port) (s : State) : Host.Outcome State Fault Refusal :=
  .next (s.request p .cmod anyPayload readCmod cmodOwner)

/-- CSEN carried out (R47); the site field is at frame offset 9. -/
def csenOwner : Owner (CellNo × Fin 8) := fun _ a s =>
  let (c, site) := a
  let x := s.cell c
  if x.negotiating then (s, .busy)
  else if !(x.state = .idle || x.state = .preparing || x.state = .paused) then
    (s, .check .cellState (arg c.val))
  else if !((x.common.map fun cap => SiteSet.has cap.sites site).getD false) then (s, .check .field 9)
  else
    let s := s.onCell c fun x => { x with active := SiteSet.add x.active site, failed := none }
    (s.serve (some hostPort) c, .good [])

/-- CSEN (R47). -/
def execCsen (p : Port) (s : State) : Host.Outcome State Fault Refusal :=
  .next (s.request p .csen anyPayload readCsen csenOwner)

def qcelOwner : Owner CellNo := fun _ c s => (s, .good (s.cell c).bytes)

/-- QCEL (R54). -/
def execQcel (p : Port) (s : State) : Host.Outcome State Fault Refusal :=
  .next (s.request p .qcel anyPayload readCell qcelOwner)

/-- CUNB carried out (R87). -/
def cunbOwner : Owner CellNo := fun _ c s =>
  let x := s.cell c
  if x.negotiating then (s, .busy)
  else match x.state, x.bound with
    | .preparing, some id | .paused, some id =>
      let s := s.onCell c fun x => { x with preparation := none }
      let s := s.unbind (some hostPort) c id fun x => { x with state := .idle }
      (s, .good (be32 id ++ s.lotStateOf id))
    | _, _ => (s, .check .cellState (arg c.val))

/-- CUNB (R87). -/
def execCunb (p : Port) (s : State) : Host.Outcome State Fault Refusal :=
  .next (s.request p .cunb anyPayload readCell cunbOwner)

end Sys2Proof.Machine
end

