-- ==== Sys2Proof/Machine/EquipmentRequests.lean ====
section
/-! DEFINITION. QEQP, EANN, and the members' requests in negotiation and preparation: EABL, ECNF, EPLD, ELDF
and ETMP (chapters 2, 3 and 6). -/

namespace Sys2Proof.Machine

/-! ## QEQP (R32, R33) -/

def qeqpOwner : Owner Id := fun _ id s =>
  match s.find id with
  | some (i, e) => (s, .good (e.bytes i))
  | none => (s, .check .unknownEquipment id)

/-- QEQP with a nonzero id (R32). -/
def execQeqp (p : Port) (s : State) : Host.Outcome State Fault Refusal :=
  .next (s.request p .qeqp (fun b => !asksForList b) readQeqp qeqpOwner)

/-- The equipment ids in table order (R22, R33). -/
def State.equipmentIds (s : State) : List Id :=
  (List.finRange 48).filterMap fun i => (s.entry i).map fun e => e.id

def qeqpListOwner : Owner Id := fun _ _ s =>
  (s, .good (be 1 s.equipmentIds.length ++ s.equipmentIds.flatMap be32))

/-- QEQP with an id of 0 (R33). -/
def execQeqpList (p : Port) (s : State) : Host.Outcome State Fault Refusal :=
  .next (s.request p .qeqp asksForList readQeqp qeqpListOwner)

/-! ## EANN (R25, R26) -/

/-- A new entry (R25). -/
def Entry.learned (id : Id) (p : Port) (ability : Ability) : Entry := ⟨id, p, .present, 0, none, ability⟩

/-- EANN from an id not in the table (R25); data are the index and NEW. -/
def State.learn (s : State) (p : Port) (id : Id) (ability : Ability) : State × Reply :=
  match s.freePosition with
  | some i =>
    if s.portCount p < Config.entriesPerPort then
      (s.setEntry i (some (Entry.learned id p ability)), .good (num1 i ++ [1]))
    else (s, .check .tableFull 0)
  | none => (s, .check .tableFull 0)

/-- EANN from a known id (R26); data are the index and KNOWN. A member's cell is told of the re-announce once
the entry is changed (R29). -/
def State.relearn (s : State) (p : Port) (i : Position) (e : Entry) (ability : Ability) : State × Reply :=
  if e.ability.kind ≠ ability.kind then (s, .check .kindMismatch e.id)
  else
    let s := s.setEntry i (some { e.refreshed p with ability := ability })
    let s := match e.membership with
      | some c => s.disturb (some p) c .reannounce
      | none => s
    (s, .good (num1 i ++ [2]))

/-- EANN carried out for port `p`. -/
def eannOwner (p : Port) : Owner Ability := fun f ability s =>
  match s.find f.source with
  | some (i, e) => s.relearn p i e ability
  | none => s.learn p f.source ability

/-- EANN (R25, R26). -/
def execEann (p : Port) (s : State) : Host.Outcome State Fault Refusal :=
  .next (s.request p .eann anyPayload readEann (eannOwner p))

/-! ## EABL and ECNF (R39 to R42) -/

/-- The entry's ability record is replaced whole (R39). -/
def State.setAbility (s : State) (id : Id) (ability : Ability) : State :=
  s.onEquip id fun e => { e with ability := ability }

/-- The sender's report is marked received (R39). -/
def Negotiation.report (n : Negotiation) (handler : Bool) : Negotiation :=
  if handler then { n with handlerReported := true } else { n with testerReported := true }

/-- The sender's acceptance is marked received (R41). -/
def Negotiation.accept (n : Negotiation) (handler : Bool) : Negotiation :=
  if handler then { n with handlerAccepted := true } else { n with testerAccepted := true }

def eablOwner : Owner (CellNo × Ability) := fun f a s =>
  let (c, ability) := a
  let x := s.cell c
  let handler : Bool := x.handler = some f.source
  if !x.hasMember f.source then (s, .check .unknownCell (arg c.val))
  else if ((s.equip f.source).map fun e => e.ability.kind) ≠ some ability.kind then
    (s, .check .kindMismatch f.source)
  else match x.state, x.negotiation with
    | .offer, some n =>
      let n := n.report handler
      let s := (s.setAbility f.source ability).onCell c fun x => { x with negotiation := some n }
      (if n.handlerReported ∧ n.testerReported then s.reported c else s, .good [])
    | .confirm, some _ => ((s.setAbility f.source ability).enterOffer c handler !handler, .good [])
    | _, _ => (s, .check .cellState (arg c.val))

/-- EABL (R39, R40). -/
def execEabl (p : Port) (s : State) : Host.Outcome State Fault Refusal :=
  .next (s.request p .eabl anyPayload readEabl eablOwner)

/-- ECNF carried out for port `p` (R41). -/
def ecnfOwner (p : Port) : Owner (CellNo × Capability) := fun f a s =>
  let (c, echo) := a
  let x := s.cell c
  if !x.hasMember f.source then (s, .check .unknownCell (arg c.val))
  else match x.state, x.negotiation with
    | .confirm, some n =>
      if n.proposed ≠ some echo then (s.enterFault c .mismatch, .check .inconsistent (arg c.val))
      else
        let n := n.accept (x.handler = some f.source)
        let s := s.onCell c fun x => { x with negotiation := some n }
        (if n.handlerAccepted ∧ n.testerAccepted then s.formed (some p) c echo else s, .good [])
    | _, _ => (s, .check .cellState (arg c.val))

/-- ECNF (R41, R42). -/
def execEcnf (p : Port) (s : State) : Host.Outcome State Fault Refusal :=
  .next (s.request p .ecnf anyPayload readEcnf (ecnfOwner p))

/-! ## EPLD, ELDF and ETMP (R95, R96, R98) -/

/-- The sender checks of R95: a member of the named cell, and of the kind the request needs. -/
def State.senderFault (s : State) (c : CellNo) (id : Id) (kind : EquipKind) : Option Reply :=
  let x := s.cell c
  if !x.hasMember id then some (.check .unknownCell (arg c.val))
  else
    let needed := match kind with
      | .handler => x.handler
      | .tester => x.tester
    if needed = some id then none else some (.check .kindMismatch id)

/-- The cell is PREPARING with its program part PENDING (R95, R96). -/
def Cell.awaitsProgram (x : Cell) : Bool :=
  x.state = .preparing && (x.preparation.map fun p => p.program) = some .pending

/-- The tester holds the program it was asked to load (R95). -/
def State.programLoaded (s : State) (src : Option Port) (c : CellNo) (id program : Id) : State :=
  let s := s.onEquip id fun e =>
    { e with ability := match e.ability with
      | .tester a => .tester { a with program := program }
      | .handler a => .handler a }
  let awaited := (s.cell c).awaitsProgram
  let s := s.onCell c fun x => { x with loadRequest := none }
  if awaited then
    let s := s.onCell c fun x =>
      { x with preparation :=
          x.preparation.map fun p => { p with program := .done, loadDeadline := none } }
    (s.testPreparation src c).serve src c
  else s

/-- The load request has been answered without success: it is removed, and a preparation that awaits the
program fails (R95, R96). -/
def State.programRefused (s : State) (src : Option Port) (c : CellNo) : State :=
  let awaited := (s.cell c).awaitsProgram
  let s := s.onCell c fun x => { x with loadRequest := none }
  if awaited then s.loadFailed src c else s

/-- EPLD carried out for port `p` (R95). -/
def epldOwner (p : Port) : Owner (CellNo × Id) := fun f a s =>
  let (c, program) := a
  match s.senderFault c f.source .tester, (s.cell c).loadRequest with
  | some reply, _ => (s, reply)
  | none, none => (s, .check .cellState (arg c.val))
  | none, some asked =>
    (if program = asked then s.programLoaded (some p) c f.source program else s.programRefused (some p) c,
      .good [])

/-- EPLD (R95). -/
def execEpld (p : Port) (s : State) : Host.Outcome State Fault Refusal :=
  .next (s.request p .epld anyPayload readProgram (epldOwner p))

/-- ELDF carried out for port `p` (R96). -/
def eldfOwner (p : Port) : Owner (CellNo × Id) := fun f a s =>
  let (c, program) := a
  match s.senderFault c f.source .tester with
  | some reply => (s, reply)
  | none =>
    if (s.cell c).loadRequest = some program then (s.programRefused (some p) c, .good [])
    else (s, .check .cellState (arg c.val))

/-- ELDF (R96). -/
def execEldf (p : Port) (s : State) : Host.Outcome State Fault Refusal :=
  .next (s.request p .eldf anyPayload readProgram (eldfOwner p))

/-- The handler has reached the set point (R98): reached is set, and a SETTLING preparation goes on. -/
def State.temperatureReached (s : State) (src : Option Port) (c : CellNo) : State :=
  let soakTime := ((s.boundLot c).map fun l => (s.product l).soakTime).getD 0
  let s := s.onCell c fun x => { x with thermal := { x.thermal with reached := true, soak := 0 } }
  match (s.cell c).state, (s.cell c).preparation with
  | .preparing, some p =>
    if p.thermal = .settling then
      let s := s.onCell c fun x =>
        { x with preparation := some { p with
            settleDeadline := none, thermal := if soakTime = 0 then .done else .soaking } }
      (s.testPreparation src c).serve src c
    else s
  | _, _ => s

/-- ETMP carried out for port `p` (R98). -/
def etmpOwner (p : Port) : Owner (CellNo × Int) := fun f a s =>
  let (c, t) := a
  match s.senderFault c f.source .handler with
  | some reply => (s, reply)
  | none =>
    let th := (s.cell c).thermal
    if th.setPoint ≠ some t then (s, .check .cellState (arg c.val))
    else (if th.reached then s else s.temperatureReached (some p) c, .good [])

/-- ETMP (R98). -/
def execEtmp (p : Port) (s : State) : Host.Outcome State Fault Refusal :=
  .next (s.request p .etmp anyPayload readEtmp (etmpOwner p))

end Sys2Proof.Machine
end

