-- ==== Sys2Proof/Machine/RunRequests.lean ====
section
/-! DEFINITION. ERND and EBIN (chapters 6 and 7): the end of a run, and the accounting of results. -/

namespace Sys2Proof.Machine

/-! ## ERND (R105) -/

/-- ERND carried out for port `p` (R105); the data are the outcome, CLOSED or CLOSING. -/
def erndOwner (p : Port) : Owner ErndFields := fun f a s =>
  match s.senderFault a.cell f.source .handler, (s.cell a.cell).run with
  | some reply, _ => (s, reply)
  | none, none => (s, .check .runClosed (arg a.cell.val))
  | none, some r =>
    if r.number ≠ BitVec.ofNat 16 a.run then (s, .check .wrongRun (arg a.cell.val))
    else if (s.cell a.cell).state = .closing then (s, .check .cellState (arg a.cell.val))
    else if a.reason = .stopped ∧ !r.stopFlag then (s, .check .cellState (arg a.cell.val))
    else
      let out := s.evaluateEnd (some p) a.cell r a.count a.reason
      (out.1, .good [out.2])

/-- ERND (R105). -/
def execErnd (p : Port) (s : State) : Host.Outcome State Fault Refusal :=
  .next (s.request p .ernd anyPayload readErnd (erndOwner p))

/-! ## EBIN: validation (R117, R118) -/

/-- The first check an entry fails (R118), in the order of the table; `none` when it passes. -/
def BinEntry.fault (e : BinEntry) (r : Run) (plan : BinPlan) : Option SenseCode :=
  if !e.clean then some .field
  else if !SiteSet.has r.sites e.site then some .siteNotInRun
  else match e.origin with
    | some o => if r.pass = 0 ∨ plan[o].cls ≠ .retest then some .field else none
    | none => if r.pass = 0 then none else some .field

/-- The first entry that fails, its index as argument (R118). -/
def entriesFault (r : Run) (plan : BinPlan) : Nat → List BinEntry → Option Reply
  | _, [] => none
  | i, e :: es =>
    match e.fault r plan with
    | some code => some (.check code (arg i))
    | none => entriesFault r plan (i + 1) es

/-! ## EBIN: application (R120 to R122) -/

/-- A lot and a run as the units counted so far have left them. -/
structure Tally where
  lot      : Lot
  run      : Run
  counted  : Nat
  excluded : Nat
deriving DecidableEq, Repr

/-- A unit in bin `b` goes to the next pool when the bin is RETEST class, and to F otherwise (R121, R122). -/
def Lot.store (l : Lot) (plan : BinPlan) (b : Fin 16) : Lot :=
  if plan[b].cls = .retest then { l with poolNext := l.poolNext.inc b } else { l with final := l.final.inc b }

/-- A site's statistics take one unit (R121 step 3). -/
def Run.countSite (r : Run) (site : Fin 8) (pass : Bool) : Run :=
  let n := r.counts[site]
  { r with counts := r.counts.set site ⟨n.seen + 1, n.passed + if pass then 1 else 0⟩ }

/-- The unit is excluded (R121, R122): X advances, saturating. -/
def Tally.exclude (t : Tally) : Tally :=
  { t with run := { t.run with excess := bump t.run.excess }, excluded := t.excluded + 1 }

/-- The unit is counted in B (R121 step 4, R122 step 3). -/
def Tally.count (t : Tally) (l : Lot) (r : Run) : Tally :=
  { t with lot := l, run := { r with binned := r.binned + 1 }, counted := t.counted + 1 }

/-- One unit of pass 0 (R121). -/
def Tally.unitFirst (t : Tally) (plan : BinPlan) (site : Fin 8) (b : Fin 16) : Tally :=
  if t.lot.tested + t.lot.lost < t.lot.started then
    t.count ({ t.lot with tested := t.lot.tested + 1 }.store plan b)
      (t.run.countSite site (plan[b].cls = .pass))
  else t.exclude

/-- One unit of a retest pass, drawn from the pool of its origin (R122). -/
def Tally.unitRetest (t : Tally) (plan : BinPlan) (origin b : Fin 16) : Tally :=
  if 0 < t.lot.poolNow[origin] then
    t.count ({ t.lot with poolNow := t.lot.poolNow.dec origin }.store plan b) t.run
  else t.exclude

/-- One unit of an entry (R120): the run's pass decides which rule applies. -/
def Tally.unit (plan : BinPlan) (e : BinEntry) (t : Tally) : Tally :=
  match e.origin with
  | some o => if t.run.pass = 0 then t.unitFirst plan e.site e.bin else t.unitRetest plan o e.bin
  | none => t.unitFirst plan e.site e.bin

/-- An entry's units, one at a time, r + 1 times (R120). -/
def Tally.entry (plan : BinPlan) (t : Tally) (e : BinEntry) : Tally :=
  Nat.repeat (Tally.unit plan e) (e.again + 1) t

/-- A message's entries in the order carried (R120). -/
def Tally.entries (plan : BinPlan) (t : Tally) (es : List BinEntry) : Tally := es.foldl (Tally.entry plan) t

/-! ## EBIN: the checks that follow (R123, R129 to R133) -/

/-- The RECONCILE EXCESS placement, if X grew from what it was before the message (R123, R124 step 1). An excluded
unit that finds X at its limit leaves it there, and no hold is placed for it. -/
def State.checkExcess (s : State) (src : Option Port) (id : Id) (before after : Nat) : State :=
  if before < after then s.placeHold src id .reconcile excessArg after else s

/-- The running checks act once T1 has reached the guard count (R129). -/
def State.runningChecks (s : State) (src : Option Port) (id : Id) : State :=
  match s.lot id with
  | some l => if (s.product l).guard ≤ l.tested then s.checkRatios src id else s
  | none => s

/-- A site qualifies (R127). -/
def Run.qualifies (r : Run) (siteGuard : Nat) (site : Fin 8) : Bool :=
  SiteSet.has r.sites site && siteGuard ≤ r.counts[site].seen

/-- The site yield y_s (R127). -/
def Run.siteYield (r : Run) (site : Fin 8) : Nat := shareDown r.counts[site].passed r.counts[site].seen

/-- The lowest site by yield, the lower number among equals (R131). -/
def lowest (r : Run) : List (Fin 8) → Option (Fin 8)
  | [] => none
  | x :: xs =>
    match lowest r xs with
    | none => some x
    | some y => if r.siteYield y < r.siteYield x then some y else some x

/-- The site that the site-delta check removes, with the top yield (R131). -/
def Run.lowSite (r : Run) (p : Product) (active : SiteSet) : Option (Fin 8 × Nat) :=
  let qualifying := (List.finRange 8).filter fun x => r.qualifies p.siteGuard x
  let top := (qualifying.map r.siteYield).foldl max 0
  match lowest r (qualifying.filter fun x => SiteSet.has active x) with
  | some low =>
    if 2 ≤ qualifying.length ∧ p.siteLimit < top - r.siteYield low then some (low, top) else none
  | none => none

/-- The low site leaves the active site set, NSDS goes to both members, and an emptied set places a SITE hold
(R132, R133). -/
def State.removeSite (s : State) (src : Option Port) (c : CellNo) (id : Id) (r : Run) (site : Fin 8)
    (top : Nat) : State :=
  let s := s.onCell c fun x => { x with active := SiteSet.drop x.active site }
  let active := (s.cell c).active
  let s := s.notifyMembers c fun m => .nsds m c id r.number site (r.siteYield site) top active
  if active = 0 then s.placeHold src id .site c.val site.val else s

/-- The site-delta check of a run of pass 0 (R131). -/
def State.checkSites (s : State) (src : Option Port) (c : CellNo) (id : Id) : State :=
  match s.lot id, (s.cell c).run with
  | some l, some r =>
    if r.pass = 0 then
      match r.lowSite (s.product l) (s.cell c).active with
      | some (site, top) => s.removeSite src c id r site top
      | none => s
    else s
  | _, _ => s

/-- An accepted EBIN is applied and followed by its checks (R120, R124). -/
def State.applyResults (s : State) (src : Option Port) (c : CellNo) (l : Lot) (r : Run)
    (es : List BinEntry) : State × Reply :=
  let t := Tally.entries (s.planOf l) ⟨l, r, 0, 0⟩ es
  let s := s.onLot l.id fun _ => t.lot
  let s := s.onCell c fun x => { x with run := some t.run }
  let s := s.checkExcess src l.id r.excess t.run.excess
  let s := s.runningChecks src l.id
  let s := s.checkSites src c l.id
  let s := s.testClose src c
  (s, .good (be 2 t.counted ++ be 2 t.excluded ++ be 2 t.run.binned ++ be 2 t.run.excess))

/-- EBIN carried out for port `p` (R117, R118, R124). -/
def ebinOwner (p : Port) : Owner EbinFields := fun f a s =>
  match s.lot a.lot with
  | none => (s, .check .unknownLot a.lot)
  | some l =>
    match l.cell with
    | none => (s, .check .noRun a.lot)
    | some c =>
      if l.state ≠ .bound ∨ (s.cell c).tester ≠ some f.source then (s, .check .noRun a.lot)
      else match (s.cell c).run with
        | none => (s, .check .runClosed (arg c.val))
        | some r =>
          if r.number ≠ BitVec.ofNat 16 a.run then (s, .check .wrongRun (arg c.val))
          else match entriesFault r (s.planOf l) 0 a.entries with
            | some reply => (s, reply)
            | none => s.applyResults (some p) c l r a.entries

/-- EBIN (R115 to R124). -/
def execEbin (p : Port) (s : State) : Host.Outcome State Fault Refusal :=
  .next (s.request p .ebin anyPayload readEbin (ebinOwner p))

end Sys2Proof.Machine
end

