-- ==== Sys2Proof/Machine/ReleaseRequests.lean ====
section
/-! DEFINITION. The release unit's requests (chapter 9): QRES, RLSE, STAK and SARM. -/

namespace Sys2Proof.Machine

/-! ## QRES (R156, R157) -/

/-- An accepted QA result acts (R157); the verdict is PASSED (1) or FAILED (2). -/
def State.judgeSample (s : State) (l : Lot) (r : Nat) : State × Byte :=
  let s := s.onLot l.id fun l => { l with rejects := r, samplePending := false }
  if r ≤ (s.product l).acceptNumber then
    ((s.onLot l.id fun l => { l with state := .accepted }).nlot l.id .accepted, 1)
  else (s.placeHold (some qaPort) l.id .qa 0 r, 2)

def qresOwner : Owner (Id × Nat × Nat) := fun _ a s =>
  let (id, m, r) := a
  match s.lot id with
  | none => (s, .check .unknownLot id)
  | some l =>
    if l.state ≠ .sampling ∨ !l.samplePending then (s, .check .wrongState id)
    else if !l.unheld then (s, .check .held id)
    else if l.sampleSize ≠ some m then (s, .check .sampleCount id)
    else
      let out := s.judgeSample l r
      (out.1, .good ([out.2] ++ be 2 r ++ out.1.lotStateOf id
        ++ be 1 (((out.1.lot id).map Lot.holdCount).getD 0)))

/-- QRES (R156). -/
def execQres (p : Port) (s : State) : Host.Outcome State Fault Refusal :=
  .next (s.request p .qres anyPayload readQres qresOwner)

/-! ## RLSE (R160 to R163) -/

def rlseOwner : Owner Id := fun _ id s =>
  match s.lot id with
  | none => (s, .check .unknownLot id)
  | some l =>
    if l.state ≠ .accepted then (s, .check .wrongState id)
    else if !l.unheld then (s, .check .held id)
    else if Config.releaseRoom ≤ s.shipments.length then (s, .check .queueFull 0)
    else
      let record := s.shipmentOf l
      let s := { s with shipments := s.shipments ++ [record] }
      let s := (s.onLot id fun l => { l with state := .released }).nlot id .released
      let place := s.shipments.length
      let s := if record.offer = .offered then s.attentionTest else s
      (s, .good ([record.offer.byte] ++ be 1 place ++ be 2 record.shipped ++ be 2 record.yield))

/-- RLSE (R160). -/
def execRlse (p : Port) (s : State) : Host.Outcome State Fault Refusal :=
  .next (s.request p .rlse anyPayload readLotId rlseOwner)

/-! ## STAK (R73, R164) -/

/-- The queue's length and the offered count, as STAK and SARM answer them. -/
def State.queueCounts (s : State) : List Byte := be 1 s.shipments.length ++ be 1 s.offeredCount

/-- The lot of a shipment record that was taken is retired (R73). -/
def State.retire (s : State) (id : Id) : State :=
  match s.lot id with
  | some l => s.freeLot l .taken
  | none => s

def stakOwner : Owner Unit := fun _ _ s =>
  match s.shipments.find? fun r => r.offer = .offered with
  | some r =>
    let s := (s.dropShipment r.lot).retire r.lot
    (s, .good ([1] ++ r.bytes ++ s.queueCounts))
  | none => (s, .good ([0] ++ s.queueCounts))

/-- STAK (R164). -/
def execStak (p : Port) (s : State) : Host.Outcome State Fault Refusal :=
  .next (s.request p .stak anyPayload readEmpty stakOwner)

/-! ## SARM (R167) -/

def sarmOwner : Owner Unit := fun _ _ s =>
  let s := { s with armed := true }.attentionTest
  (s, .good (flag s.armed ++ be 1 s.offeredCount ++ be 1 s.shipments.length))

/-- SARM (R167). -/
def execSarm (p : Port) (s : State) : Host.Outcome State Fault Refusal :=
  .next (s.request p .sarm anyPayload readEmpty sarmOwner)

end Sys2Proof.Machine
end

