-- ==== Sys2Proof/Machine/ConfigRequests.lean ====
section
/-! DEFINITION. The clock and configuration requests (chapters 10 and 11): CLKS, WPRD, WBPL, WPAR, WWIN,
CRDY, CSAV and FRST. -/

namespace Sys2Proof.Machine

/-! ## CLKS (R174) -/

/-- The response data of CLKS (R174). -/
def State.clockBytes (s : State) : List Byte :=
  be 1 s.clock.seconds ++ be32 s.clock.stamp ++ be 2 s.clock.minute ++ be 2 s.tables.parameters.period
    ++ [s.clock.dispatchGate.byte, s.clock.releaseGate.byte]
    ++ optional 2 (s.tables.parameters.mark.map (be 2))

/-- M is loaded and the seconds count becomes 0, and the gates are evaluated (R174). -/
def State.loadMinute (s : State) (m : Nat) : State :=
  { s with clock := { s.clock with minute := m, seconds := 0 } }.evaluateGates (some hostPort)

/-- CLKS carried out (R174). DEDUCED (log 9): the period minute field is at frame offset 9, after its presence
byte. -/
def clksOwner : Owner (Option Nat) := fun _ a s =>
  match a with
  | none => (s, .good s.clockBytes)
  | some m =>
    if s.tables.parameters.period < m then (s, .check .field 9)
    else
      let s := s.loadMinute m
      (s, .good s.clockBytes)

/-- CLKS (R174). -/
def execClks (p : Port) (s : State) : Host.Outcome State Fault Refusal :=
  .next (s.request p .clks anyPayload readClks clksOwner)

/-! ## Configuration writes (R187 to R190) -/

/-- The configuration state as response data. -/
def State.configData (s : State) : List Byte := [s.configState.byte]

/-- A lot in the table names the product (R187). -/
def State.productInUse (s : State) (i : Fin 32) : Bool := s.lots.any fun l => l.product = i

/-- A lot in the table names a product that names the plan (R188). -/
def State.planInUse (s : State) (i : Fin 8) : Bool := s.lots.any fun l => (s.product l).plan = i

/-- The defined products that name a plan, lowest index first (R188). -/
def Tables.productsOfPlan (t : Tables) (i : Fin 8) : List (Fin 32) :=
  (List.finRange 32).filter fun k => t.products[k].defined && t.products[k].plan = i

def wprdOwner : Owner (Fin 32 × Product) := fun _ a s =>
  let (i, product) := a
  if s.productInUse i then (s, .check .inUse (arg i.val))
  else if s.configState = .configured ∧ product.defined ∧ !(s.plan product).hasPass then
    (s, .check .field (arg i.val))
  else
    ({ s with tables := { s.tables with products := s.tables.products.set i product } }, .good s.configData)

/-- WPRD (R187). -/
def execWprd (p : Port) (s : State) : Host.Outcome State Fault Refusal :=
  .next (s.request p .wprd anyPayload readWprd wprdOwner)

def wbplOwner : Owner (Fin 8 × BinPlan) := fun _ a s =>
  let (i, plan) := a
  if s.planInUse i then (s, .check .inUse (arg i.val))
  else
    match (if s.configState = .configured ∧ !plan.hasPass then (s.tables.productsOfPlan i).head? else none) with
    | some k => (s, .check .field (arg k.val))
    | none => ({ s with tables := { s.tables with plans := s.tables.plans.set i plan } }, .good s.configData)

/-- WBPL (R188). -/
def execWbpl (p : Port) (s : State) : Host.Outcome State Fault Refusal :=
  .next (s.request p .wbpl anyPayload readWbpl wbplOwner)

/-- The parameter set is replaced, and each block acts on what it reads (R189). DESIGN CHOICE (log 5): the
dispatcher recomputes before the gates are evaluated. -/
def State.setParameters (s : State) (new : Parameters) : State :=
  let old := s.tables.parameters
  let s := { s with tables := { s.tables with parameters := new } }
  let s := if old.agingStep = new.agingStep then s else s.recompute
  if old.period = new.period then s else s.periodChanged (some hostPort)

def wparOwner : Owner Parameters := fun _ new s =>
  (s.setParameters new, .good s.configData)

/-- WPAR (R189). -/
def execWpar (p : Port) (s : State) : Host.Outcome State Fault Refusal :=
  .next (s.request p .wpar anyPayload readWpar wparOwner)

/-- WWIN carried out (R190); the start is at frame offset 10 and the end at 12. -/
def wwinOwner : Owner (Fin 4 × Window) := fun _ a s =>
  let (i, w) := a
  if s.tables.parameters.period < w.start then (s, .check .field 10)
  else if s.tables.parameters.period < w.stop then (s, .check .field 12)
  else
    let s := { s with tables := { s.tables with windows := s.tables.windows.set i w } }
    (s.evaluateGates (some hostPort), .good s.configData)

/-- WWIN (R190). -/
def execWwin (p : Port) (s : State) : Host.Outcome State Fault Refusal :=
  .next (s.request p .wwin anyPayload readWwin wwinOwner)

/-! ## CRDY, CSAV and FRST (R191, R192, R194) -/

/-- A defined product fails the consistency check (R182, R191). -/
def Tables.productFails (t : Tables) (i : Fin 32) : Bool :=
  let p := t.products[i]
  p.defined && (!t.plans[p.plan].hasPass || p.sampleMax < p.sampleMin)

/-- The number of defined products (R191). -/
def Tables.definedCount (t : Tables) : Nat :=
  ((List.finRange 32).filter fun i => t.products[i].defined).length

def crdyOwner : Owner Unit := fun _ _ s =>
  match (List.finRange 32).find? s.tables.productFails with
  | some i => (s, .check .field (arg i.val))
  | none =>
    let s := { s with configState := .configured }
    (s, .good (s.configData ++ be 1 s.tables.definedCount))

/-- CRDY (R191). -/
def execCrdy (p : Port) (s : State) : Host.Outcome State Fault Refusal :=
  .next (s.request p .crdy anyPayload readEmpty crdyOwner)

/-- CSAV taken (R192): the format marker is erased and the write is under way; the request waits for it. -/
def csavOwner : Owner Unit := fun _ _ s =>
  if s.configState = .configured then
    ({ s with storeJob := some .write, store := { s.store with marker := false } }, .wait)
  else (s, .check .notConfigured 0)

/-- CSAV (R192). -/
def execCsav (p : Port) (s : State) : Host.Outcome State Fault Refusal :=
  .next (s.request p .csav anyPayload readEmpty csavOwner)

/-- FRST is answered GOOD; the floor reset acts once that response has been sent (R194). -/
def frstOwner : Owner Unit := fun _ _ s => (s, .good [])

/-- FRST (R194). -/
def execFrst (p : Port) (s : State) : Host.Outcome State Fault Refusal :=
  .next (s.request p .frst anyPayload readEmpty frstOwner)

end Sys2Proof.Machine
end

