-- ==== Sys2Proof/Machine/LinkEvents.lean ====
section
/-! DEFINITION. The events of the links and the requests that the port units own (chapter 1): received bytes,
frames, gaps, sent frames, SENS, PSTA and unknown codes. -/

namespace Sys2Proof.Machine

/-- A byte received on a port (R2). A byte that completes a frame, or is a length below 6, has the whole effect
that R2 gives it, as its own rows have. -/
def execReceivedByte (p : Port) (b : Byte) (s : State) : Host.Outcome State Fault Refusal :=
  .next (s.settle.onPort p fun u => u.receive b)

/-- A receiver in BODY that lacks one byte. -/
def PortUnit.awaitsLast (u : PortUnit) : Option (Nat × List Byte) :=
  match u.receiver with
  | .body length got => if got.length + 1 = length + 3 then some (length, got) else none
  | _ => none

/-- The last CRC byte of a frame is received (R2, R4); on a port that awaits no last byte it is no event
(log 3). -/
def execFrameComplete (p : Port) (last : Byte) (s : State) : Host.Outcome State Fault Refusal :=
  .next (s.settle.onPort p fun u =>
    match u.awaitsLast with
    | some (length, got) => u.complete length (got ++ [last])
    | none => u)

/-- A length byte below 6 in HEADER (R2); any other byte, or another condition of the receiver, is no event
of this row (log 3). -/
def execLengthBelow6 (p : Port) (length : Byte) (s : State) : Host.Outcome State Fault Refusal :=
  .next (s.settle.onPort p fun u =>
    if u.receiver = .header ∧ length.toNat < 6 then
      { u with receiver := Receiver.hunting }.countCrcError
    else u)

/-- Idle line time of more than 5 ms (R3). -/
def execGapAbort (p : Port) (s : State) : Host.Outcome State Fault Refusal :=
  .next (s.settle.onPort p PortUnit.gap)

/-- The last character of the frame on the line has been sent (R7, R16). After FRST's GOOD response the floor
reset is listed, to be taken before anything else (R194). -/
def execFrameSent (p : Port) (s : State) : Host.Outcome State Fault Refusal :=
  let s := s.settle
  let resets := (s.port p).sendsFloorReset
  let s := s.onPort p PortUnit.sent
  .next (if resets then { s with due := [.floorReset] } else s)

/-- SENS carried out for port `p` (R12): the sense record; the GOOD outcome then clears it (R11). -/
def sensOwner (p : Port) : Owner Unit := fun _ _ s => (s, .good (s.port p).sense.bytes)

/-- SENS (R12). -/
def execSens (p : Port) (s : State) : Host.Outcome State Fault Refusal :=
  .next (s.request p .sens anyPayload readEmpty (sensOwner p))

/-- PSTA carried out for port `p` (R17): the status is taken, then the latches and counters are cleared. The
intake depth is that of the moment the request was taken into service. -/
def pstaOwner (p : Port) : Owner Unit := fun _ _ s =>
  let depth := ((s.port p).service.map fun v => v.depth).getD 0
  (s.onPort p PortUnit.clearStatus, .good ((s.port p).status depth))

/-- PSTA (R17). -/
def execPsta (p : Port) (s : State) : Host.Outcome State Fault Refusal :=
  .next (s.request p .psta anyPayload readEmpty (pstaOwner p))

/-- A request in service whose code is no request's (R8 steps 1 and 2): the mnemonic is blank. -/
def execUnknownCode (p : Port) (s : State) : Host.Outcome State Fault Refusal :=
  let s := s.settle
  .next (match s.taken p with
    | some v =>
      if Req.ofCode v.frame.code = none then
        if s.startsUp v then s.answerStartUp p none
        else s.answer p none (.check .field 2)
      else s
    | none => s)

end Sys2Proof.Machine
end

