-- ==== Sys2Proof/Machine/PartEvents.lean ====
section
/-! DEFINITION. The events of the whole part: resets, the store, the seconds tick and what it brings about
(chapters 2, 3, 6, 10 and 11). -/

namespace Sys2Proof.Machine

/-! ## Resets and the store -/

/-- POWER_ON_RESET (R19, R193). -/
def execPowerOnReset (cut : WriteCut) (s : State) : Host.Outcome State Fault Refusal := .next (s.powerOn cut)

/-- FLOOR_RESET (R194), once FRST's GOOD response has been sent. -/
def execFloorReset (s : State) : Host.Outcome State Fault Refusal := .next (s.takeListed .floorReset)

/-- START_UP_LOAD (R184): the end of the load that is under way; with none under way it is no event (log 3). -/
def execStartUpLoad (reply : StoreReply) (s : State) : Host.Outcome State Fault Refusal :=
  let s := s.settle
  .next (if s.configState = .loading then s.endLoad reply else s)

/-- The LENT or CDCK that waits on port 0 is taken by its owner on the installed tables (R186). -/
def State.resumeWaiting (s : State) (f : Frame) : State :=
  match Req.ofCode f.code with
  | some .lent => s.checkFields hostPort .lent readLent lentConfigured f
  | some .cdck => s.checkFields hostPort .cdck readCdck cdckConfigured f
  | _ => s

/-- The re-attempt of the store load ends (R186). -/
def State.endReattempt (s : State) (reply : StoreReply) (f : Frame) : State :=
  let s := { s with storeJob := none }
  if s.store.loads reply then
    ({ s with tables := s.store.tables, configState := .configured }.periodChanged (some hostPort)).resumeWaiting
      f
  else s.answer hostPort (Req.ofCode f.code) (.check .notConfigured 0)

/-- STORE_LOAD_REATTEMPT (R186); with no re-attempt under way it is no event (log 3). -/
def execStoreLoadReattempt (reply : StoreReply) (s : State) : Host.Outcome State Fault Refusal :=
  let s := s.settle
  .next (match s.storeJob, (s.port hostPort).service with
    | some .reattempt, some v => s.endReattempt reply v.frame
    | _, _ => s)

/-- The store write ends (R192). -/
def State.endWrite (s : State) (result : ReadBack) : State :=
  match result with
  | .same =>
    let s := { s with storeJob := none, store := ⟨true, true, s.tables⟩ }
    s.answer hostPort (some .csav) (.good s.configData)
  | .differs | .silent =>
    let s := { s with storeJob := none, store := { s.store with marker := false } }
    s.answer hostPort (some .csav) (.check .storeError 0)

/-- STORE_WRITE (R192); with no write under way it is no event (log 3). -/
def execStoreWrite (result : ReadBack) (s : State) : Host.Outcome State Fault Refusal :=
  let s := s.settle
  .next (if s.storeJob = some .write then s.endWrite result else s)

/-! ## The seconds tick and its events -/

/-- SECONDS_TICK (R170). -/
def execSecondsTick (s : State) : Host.Outcome State Fault Refusal := .next s.settle.second

/-- MINUTE_TICK (R171). -/
def execMinuteTick (s : State) : Host.Outcome State Fault Refusal := .next (s.takeListed .minute)

/-- ENTRY_STALE (R27). -/
def execEntryStale (i : Position) (s : State) : Host.Outcome State Fault Refusal :=
  .next (s.takeListed (.stale i))

/-- ENTRY_REMOVAL (R28): the test for removal comes after the test for STALE, so a removal whose entry has yet
to become STALE at this tick is not taken yet. -/
def execEntryRemoval (i : Position) (s : State) : Host.Outcome State Fault Refusal :=
  .next (if Due.stale i ∈ s.due then s else s.takeListed (.removal i))

/-- SOAK_END (R99). -/
def execSoakEnd (c : CellNo) (s : State) : Host.Outcome State Fault Refusal := .next (s.takeListed (.soak c))

/-- NEGOTIATION_DEADLINE_EXPIRY (R43). -/
def execNegotiationDeadlineExpiry (c : CellNo) (s : State) : Host.Outcome State Fault Refusal :=
  .next (s.takeListed (.negotiation c))

/-- LOAD_DEADLINE_EXPIRY (R97). -/
def execLoadDeadlineExpiry (c : CellNo) (s : State) : Host.Outcome State Fault Refusal :=
  .next (s.takeListed (.load c))

/-- SETTLE_DEADLINE_EXPIRY (R100). -/
def execSettleDeadlineExpiry (c : CellNo) (s : State) : Host.Outcome State Fault Refusal :=
  .next (s.takeListed (.settle c))

/-- CLOSE_DEADLINE_EXPIRY (R107). -/
def execCloseDeadlineExpiry (c : CellNo) (s : State) : Host.Outcome State Fault Refusal :=
  .next (s.takeListed (.close c))

end Sys2Proof.Machine
end

