-- ==== Sys2Proof/Machine/Dispatch.lean ====
section
/-! DEFINITION. One arm per command: each calls its meaning. -/

namespace Sys2Proof.Machine

def exec (i : Instr) (s : State) : Host.Outcome State Fault Refusal :=
  match i with
  | .powerOnReset cut => Sys2Proof.Machine.execPowerOnReset cut s
  | .floorReset => Sys2Proof.Machine.execFloorReset s
  | .startUpLoad reply => Sys2Proof.Machine.execStartUpLoad reply s
  | .storeLoadReattempt reply => Sys2Proof.Machine.execStoreLoadReattempt reply s
  | .storeWrite result => Sys2Proof.Machine.execStoreWrite result s
  | .frameComplete port last => Sys2Proof.Machine.execFrameComplete port last s
  | .lengthBelow6 port length => Sys2Proof.Machine.execLengthBelow6 port length s
  | .gapAbort port => Sys2Proof.Machine.execGapAbort port s
  | .frameSent port => Sys2Proof.Machine.execFrameSent port s
  | .secondsTick => Sys2Proof.Machine.execSecondsTick s
  | .minuteTick => Sys2Proof.Machine.execMinuteTick s
  | .entryStale position => Sys2Proof.Machine.execEntryStale position s
  | .entryRemoval position => Sys2Proof.Machine.execEntryRemoval position s
  | .soakEnd cell => Sys2Proof.Machine.execSoakEnd cell s
  | .negotiationDeadlineExpiry cell => Sys2Proof.Machine.execNegotiationDeadlineExpiry cell s
  | .loadDeadlineExpiry cell => Sys2Proof.Machine.execLoadDeadlineExpiry cell s
  | .settleDeadlineExpiry cell => Sys2Proof.Machine.execSettleDeadlineExpiry cell s
  | .closeDeadlineExpiry cell => Sys2Proof.Machine.execCloseDeadlineExpiry cell s
  | .lent port => Sys2Proof.Machine.execLent port s
  | .lrem port => Sys2Proof.Machine.execLrem port s
  | .lpri port => Sys2Proof.Machine.execLpri port s
  | .lsht port => Sys2Proof.Machine.execLsht port s
  | .qlotSummary port => Sys2Proof.Machine.execQlotSummary port s
  | .qlotCounts port => Sys2Proof.Machine.execQlotCounts port s
  | .qlotHolds port => Sys2Proof.Machine.execQlotHolds port s
  | .qlotList port => Sys2Proof.Machine.execQlotList port s
  | .hold port => Sys2Proof.Machine.execHold port s
  | .hclr port => Sys2Proof.Machine.execHclr port s
  | .hovc port => Sys2Proof.Machine.execHovc port s
  | .cdck port => Sys2Proof.Machine.execCdck port s
  | .cund port => Sys2Proof.Machine.execCund port s
  | .crdk port => Sys2Proof.Machine.execCrdk port s
  | .cmod port => Sys2Proof.Machine.execCmod port s
  | .csen port => Sys2Proof.Machine.execCsen port s
  | .qcel port => Sys2Proof.Machine.execQcel port s
  | .cunb port => Sys2Proof.Machine.execCunb port s
  | .qeqp port => Sys2Proof.Machine.execQeqp port s
  | .qeqpList port => Sys2Proof.Machine.execQeqpList port s
  | .stak port => Sys2Proof.Machine.execStak port s
  | .sarm port => Sys2Proof.Machine.execSarm port s
  | .qres port => Sys2Proof.Machine.execQres port s
  | .rlse port => Sys2Proof.Machine.execRlse port s
  | .clks port => Sys2Proof.Machine.execClks port s
  | .wprd port => Sys2Proof.Machine.execWprd port s
  | .wbpl port => Sys2Proof.Machine.execWbpl port s
  | .wpar port => Sys2Proof.Machine.execWpar port s
  | .wwin port => Sys2Proof.Machine.execWwin port s
  | .crdy port => Sys2Proof.Machine.execCrdy port s
  | .csav port => Sys2Proof.Machine.execCsav port s
  | .frst port => Sys2Proof.Machine.execFrst port s
  | .eann port => Sys2Proof.Machine.execEann port s
  | .eabl port => Sys2Proof.Machine.execEabl port s
  | .ecnf port => Sys2Proof.Machine.execEcnf port s
  | .epld port => Sys2Proof.Machine.execEpld port s
  | .eldf port => Sys2Proof.Machine.execEldf port s
  | .etmp port => Sys2Proof.Machine.execEtmp port s
  | .ernd port => Sys2Proof.Machine.execErnd port s
  | .ebin port => Sys2Proof.Machine.execEbin port s
  | .sens port => Sys2Proof.Machine.execSens port s
  | .psta port => Sys2Proof.Machine.execPsta port s
  | .unknownCode port => Sys2Proof.Machine.execUnknownCode port s
  | .receivedByte port byte => Sys2Proof.Machine.execReceivedByte port byte s

end Sys2Proof.Machine
end

