-- ==== Sys2Proof/Machine/Payloads.lean ====
section
/-! DEFINITION. The payloads of the requests as a partner writes them (R195, R196, 12.4, 12.5): the inverse of
Operands.lean, written from the same layouts. The part itself never writes a request; claims speak of its
requests by these. -/

namespace Sys2Proof.Machine

/-! ## The bytes of each field -/

def BinClass.byte : BinClass → Byte
  | .pass => 1 | .fail => 2 | .retest => 3

def Disposition.byte : Disposition → Byte
  | .none => 0 | .accept => 1 | .resample => 2

def EndReason.byte : EndReason → Byte
  | .exhausted => 1 | .stopped => 2

def WindowKind.byte : WindowKind → Byte
  | .dispatch => 1 | .release => 2

/-- An optional field of a request: its bytes follow the presence byte only when it is present (R195). -/
def asked : Option (List Byte) → List Byte
  | none => [0]
  | some bytes => 1 :: bytes

/-- The restore part of a LENT: k, T1, D, F and P (4.4). -/
def Restore.bytes (r : Restore) : List Byte :=
  be 1 r.pass ++ be 2 r.tested ++ be 2 r.lost ++ r.final.bytes ++ r.pool.bytes

/-- LENT (4.4). -/
def LentFields.bytes (f : LentFields) : List Byte :=
  be32 f.lot ++ num1 f.product ++ [f.cls.byte] ++ be 1 f.basePriority ++ be 2 f.started
    ++ asked (f.restore.map Restore.bytes)

/-- HCLR (R145). -/
def HclrFields.bytes (f : HclrFields) : List Byte :=
  be32 f.lot ++ [f.kind.byte] ++ be 2 f.arg ++ [f.disposition.byte]

/-- A product entry in the order of R182. -/
def Product.bytes (p : Product) : List Byte :=
  flag p.defined ++ num1 p.family ++ temperature p.setPoint ++ be 2 p.kit ++ be 2 p.options.toNat
    ++ be32 p.program ++ num1 p.plan ++ be 2 p.yieldMin ++ be 2 p.guard ++ be 1 p.maxRetests
    ++ be 2 p.soakTime ++ be 2 p.samplePermille ++ be 2 p.sampleMin ++ be 2 p.sampleMax
    ++ be 1 p.acceptNumber ++ be 2 p.siteLimit ++ be 2 p.siteGuard

/-- A bin plan: class and limit of each bin (R188). -/
def BinPlan.bytes (p : BinPlan) : List Byte := p.toList.flatMap fun r => [r.cls.byte] ++ be 2 r.limit

/-- WPAR: the parameters in the order of R189. -/
def Parameters.bytes (p : Parameters) : List Byte :=
  be 2 p.aging ++ be 1 p.negotiation ++ be 2 p.load ++ be 2 p.settle ++ be 1 p.close ++ be 1 p.agingStep
    ++ be 1 p.attention ++ be 2 p.period ++ asked (p.mark.map (be 2))

/-- A window entry: kind, start and end (R190). -/
def Window.bytes (w : Window) : List Byte := [w.kind.byte] ++ be 2 w.start ++ be 2 w.stop

/-- An ability record behind its kind (12.4). -/
def Ability.announced (a : Ability) : List Byte := [a.kind.byte] ++ a.bytes

/-- ERND (R105). -/
def ErndFields.bytes (f : ErndFields) : List Byte :=
  num1 f.cell ++ be 2 f.run ++ be 2 f.count ++ [f.reason.byte]

/-- What the reserved bits of an EBIN entry carry (12.5): bit 7 of the second byte, and bits 7 to 4 of the third
byte of a tagged entry. -/
structure Reserved where
  second : Bool
  third  : Fin 16
deriving DecidableEq, Repr

/-- An EBIN entry with these reserved bits (12.5). -/
def BinEntry.wire (e : BinEntry) (r : Reserved) : List Byte :=
  let second : Byte := BitVec.ofNat 8 (e.again + if r.second then 128 else 0)
  match e.origin with
  | none => [BitVec.ofNat 8 (e.site.val * 16 + e.bin.val), second]
  | some o =>
    [BitVec.ofNat 8 (128 + e.site.val * 16 + e.bin.val), second, BitVec.ofNat 8 (r.third.val * 16 + o.val)]

/-- An EBIN entry with its reserved bits zero (12.5). -/
def BinEntry.bytes (e : BinEntry) : List Byte := e.wire ⟨false, 0⟩

/-- EBIN: the header and the entries (R115). -/
def EbinFields.bytes (f : EbinFields) : List Byte :=
  be32 f.lot ++ be 2 f.run ++ be 1 f.entries.length ++ f.entries.flatMap BinEntry.bytes

/-! ## The ranges that a request's fields must keep (R9) -/

/-- A restore part within its ranges (4.4). -/
def Restore.InRange (r : Restore) : Prop :=
  r.pass ≤ 3 ∧ r.tested ≤ 65535 ∧ r.lost ≤ 65535 ∧ ∀ b : Fin 16, r.final[b] ≤ 65535 ∧ r.pool[b] ≤ 65535

/-- LENT within its ranges (4.4). -/
def LentFields.InRange (f : LentFields) : Prop :=
  f.lot ≠ 0 ∧ f.basePriority ≤ 7 ∧ 1 ≤ f.started ∧ f.started ≤ 65535 ∧ ∀ r, f.restore = some r → r.InRange

/-- HCLR within its ranges (R145): the argument its kind's, a disposition for a QA hold only. -/
def HclrFields.InRange (f : HclrFields) : Prop :=
  f.lot ≠ 0 ∧ f.kind.argRange.1 ≤ f.arg ∧ f.arg ≤ f.kind.argRange.2
    ∧ (f.disposition = .none ∨ f.kind = .qa)

/-- A defined product within the ranges of R182, or an undefined one, which is all 0 (R187). -/
def Product.InRange (p : Product) : Prop :=
  if p.defined then
    -55 ≤ p.setPoint ∧ p.setPoint ≤ 175 ∧ p.kit ≤ 65535 ∧ p.program ≠ 0 ∧ p.yieldMin ≤ 10000 ∧ p.guard ≤ 4095
      ∧ p.maxRetests ≤ 3 ∧ p.soakTime ≤ 3600 ∧ p.samplePermille ≤ 1000 ∧ 1 ≤ p.sampleMin ∧ p.sampleMin ≤ 500
      ∧ p.sampleMin ≤ p.sampleMax ∧ p.sampleMax ≤ 2000 ∧ p.acceptNumber ≤ 255 ∧ 1 ≤ p.siteLimit
      ∧ p.siteLimit ≤ 10000 ∧ 1 ≤ p.siteGuard ∧ p.siteGuard ≤ 1023
  else p = Product.undefined

/-- A plan within its ranges (R188). -/
def BinPlan.InRange (p : BinPlan) : Prop := ∀ b : Fin 16, p[b].limit ≤ 10000

/-- Parameters within the ranges of R189. -/
def Parameters.InRange (p : Parameters) : Prop :=
  (p.aging = 0 ∨ (5 ≤ p.aging ∧ p.aging ≤ 900)) ∧ 1 ≤ p.negotiation ∧ p.negotiation ≤ 60 ∧ 10 ≤ p.load
    ∧ p.load ≤ 3600 ∧ 10 ≤ p.settle ∧ p.settle ≤ 3600 ∧ 1 ≤ p.close ∧ p.close ≤ 120 ∧ p.agingStep ≤ 255
    ∧ 1 ≤ p.attention ∧ p.attention ≤ 32 ∧ 59 ≤ p.period ∧ p.period ≤ 10079 ∧ ∀ m, p.mark = some m → m ≤ p.period

/-- An ability record within the limits of R21. -/
def Ability.InRange : Ability → Prop
  | .handler a =>
    -60 ≤ a.bandMin ∧ a.bandMin ≤ a.bandMax ∧ a.bandMax ≤ 200 ∧ a.sites ≠ 0 ∧ 1 ≤ a.kit ∧ a.kit ≤ 65535
  | .tester a => a.sites ≠ 0

/-- A capability that an ECNF can carry. -/
def Capability.InRange (c : Capability) : Prop :=
  -32768 ≤ c.bandMin ∧ c.bandMin ≤ 32767 ∧ -32768 ≤ c.bandMax ∧ c.bandMax ≤ 32767 ∧ c.kit ≤ 65535

/-- ERND within its ranges (R105). -/
def ErndFields.InRange (f : ErndFields) : Prop := f.run ≤ 65535 ∧ f.count ≤ 65535

/-- EBIN within its ranges (R115): 1 to 120 entries, their reserved bits zero. -/
def EbinFields.InRange (f : EbinFields) : Prop :=
  f.lot ≠ 0 ∧ f.run ≤ 65535 ∧ 1 ≤ f.entries.length ∧ f.entries.length ≤ 120
    ∧ ∀ e ∈ f.entries, e.again ≤ 127 ∧ e.clean = true

/-! ## The formats that the payloads are checked against (R9) -/

/-- A field of a payload as R9 checks it: its size in bytes, and which whole numbers its bytes may spell. -/
structure Field where
  size    : Nat
  allowed : Nat → Bool

/-- A whole number of `size` bytes from `lo` to `hi`. -/
def between (size lo hi : Nat) : Field := ⟨size, fun n => decide (lo ≤ n ∧ n ≤ hi)⟩

/-- A temperature from `lo` to `hi`, in 16-bit two's complement (R195; the byte order is log 35's choice). -/
def degrees (lo hi : Int) : Field :=
  ⟨2, fun n => decide (lo ≤ (BitVec.ofNat 16 n).toInt ∧ (BitVec.ofNat 16 n).toInt ≤ hi)⟩

/-- A field whose every value is in range. -/
def free (size : Nat) : Field := ⟨size, fun _ => true⟩

/-- An id of a lot, a piece of equipment or a program, or a start sequence: 32 bits, not 0. -/
def nonzero : Field := between 4 1 4294967295

/-- The frame offset of the lowest offending field (R9): the first that is cut short or holds a number it may not,
or the first byte beyond the format; `none` for a payload of the format. The fields begin at frame offset `offset`. -/
def offence : List Field → Nat → List Byte → Option Nat
  | [], offset, rest => if rest = [] then none else some offset
  | f :: fs, offset, rest =>
    if f.size ≤ rest.length ∧ f.allowed (ofBe (rest.take f.size)) = true then
      offence fs (offset + f.size) (rest.drop f.size)
    else some offset

/-- The number that `size` bytes from payload offset `place` spell. -/
def spelled (payload : List Byte) (place size : Nat) : Nat := ofBe ((payload.drop place).take size)

/-- An ability record that begins at payload offset `place`, behind its kind byte (R21, 12.4). -/
def abilityFormat (payload : List Byte) (place : Nat) : List Field :=
  if spelled payload (place - 1) 1 = 1 then
    [free 2, degrees (-60) 200, degrees (BitVec.ofNat 16 (spelled payload (place + 2) 2)).toInt 200,
      between 1 1 255, between 2 1 65535]
  else [between 1 1 255, free 2, free 4]

/-- The fields of a product entry (R182), of a defined one or of an undefined one, which are all 0; `least` is the
sample minimum that the entry carries. -/
def productFormat (defined : Bool) (least : Nat) : List Field :=
  if defined then
    [between 1 0 15, degrees (-55) 175, free 2, free 2, nonzero, between 1 0 7, between 2 0 10000, between 2 0 4095,
      between 1 0 3, between 2 0 3600, between 2 0 1000, between 2 1 500, between 2 least 2000, between 1 0 255,
      between 2 1 10000, between 2 1 1023]
  else [1, 2, 2, 2, 4, 1, 2, 2, 1, 2, 2, 2, 2, 1, 2, 2].map fun size => between size 0 0

/-- The EBIN entries that follow, `n` of them: 2 bytes each, or 3 when bit 7 of the first is set (R196). -/
def entryFormat : Nat → List Byte → List Field
  | 0, _ => []
  | n + 1, rest =>
    let size := if spelled rest 0 1 < 128 then 2 else 3
    free size :: entryFormat n (rest.drop size)

/-- The arguments that HCLR accepts for the kind of a hold, by the kind's byte (R145, 12.3). -/
def argFormat (kind : Nat) : Field :=
  if kind = 1 then free 2 else if kind = 2 ∨ kind = 3 then between 2 0 0
  else if kind = 6 then between 2 1 4 else between 2 0 15

/-- The format of a request's payload, field by field with the ranges its entry states (R9, R195, R196, 12.2 to 12.5).
A payload decides by its own bytes which optional and dependent fields follow. DEDUCED (log 9): a lot id is not 0 and a
cell number at most 15 in every request. DEDUCED (log 11): the echo of an ECNF has no range. -/
def Req.format (r : Req) (payload : List Byte) : List Field :=
  let byte (place : Nat) : Nat := spelled payload place 1
  let cell := between 1 0 15
  match r with
  | .lent => [nonzero, between 1 0 31, between 1 1 2, between 1 0 7, between 2 1 65535, between 1 0 1]
      ++ if byte 9 = 1 then between 1 0 3 :: List.replicate 34 (free 2) else []
  | .lrem | .lsht | .hovc | .rlse => [nonzero]
  | .lpri => [nonzero, between 1 0 7]
  | .qlot => between 1 1 4 :: if byte 0 = 3 then [nonzero, between 1 0 63] else [nonzero]
  | .hold => [nonzero, free 2]
  | .hclr => [nonzero, between 1 1 7, argFormat (byte 4), between 1 0 (if byte 4 = 2 then 2 else 0)]
  | .cdck => [cell, nonzero, nonzero]
  | .cund | .crdk | .qcel | .cunb => [cell]
  | .cmod => [cell, between 1 0 2]
  | .csen => [cell, between 1 0 7]
  | .qeqp => [free 4]
  | .stak | .sarm | .crdy | .csav | .frst | .sens | .psta => []
  | .qres => [nonzero, between 2 1 2000, between 2 0 (min 2000 (spelled payload 4 2))]
  | .clks => between 1 0 1 :: if byte 0 = 1 then [between 2 0 10079] else []
  | .wprd => [between 1 0 31, between 1 0 1] ++ productFormat (byte 1 = 1) (spelled payload 23 2)
  | .wbpl => between 1 0 7 :: (List.replicate 16 [between 1 1 3, between 2 0 10000]).flatten
  | .wpar => [⟨2, fun n => decide (n = 0 ∨ (5 ≤ n ∧ n ≤ 900))⟩, between 1 1 60, between 2 10 3600, between 2 10 3600,
      between 1 1 120, free 1, between 1 1 32, between 2 59 10079, between 1 0 1]
      ++ if byte 12 = 1 then [between 2 0 (spelled payload 10 2)] else []
  | .wwin => [between 1 0 3, between 1 1 2, between 2 0 10079, between 2 0 10079]
  | .eann => between 1 1 2 :: abilityFormat payload 1
  | .eabl => [cell, between 1 1 2] ++ abilityFormat payload 2
  | .ecnf => [cell, free 2, free 2, free 2, free 2, free 2, free 1]
  | .epld | .eldf => [cell, nonzero]
  | .etmp => [cell, degrees (-60) 200]
  | .ernd => [cell, free 2, free 2, between 1 1 2]
  | .ebin => [nonzero, free 2, between 1 1 120] ++ entryFormat (byte 6) (payload.drop 7)

end Sys2Proof.Machine
end

