-- ==== Sys2Proof/Safety.lean ====
section
/-! DEFINITION. The terms in which claims speak: a request in service, how it was answered, what a port unit
may have sent meanwhile, and the invariants that every step keeps. -/

namespace Sys2Proof.Machine

/-! ## Requests in service -/

/-- No event that a tick, or the end of FRST's response, brought about is still to be taken. -/
def State.Quiet (s : State) : Prop := s.due = []

/-- The request `r` from `src` with this payload is in service on port `p` and not examined yet (R7). -/
def State.InService (s : State) (p : Port) (r : Req) (src : Id) (payload : List Byte) : Prop :=
  ∃ v, (s.port p).service = some v ∧ v.progress = .taken ∧ Req.ofCode v.frame.code = some r
    ∧ v.frame.source = src ∧ v.frame.payload = payload

/-- The request that a command's row examines, the port on which it is in service, and which payloads
belong to the row (only the views of QLOT and the two forms of QEQP share a request). `none` for the rows
that are no request of R18. -/
def requestOf : Instr → Option (Port × Req × (List Byte → Bool))
  | .lent p => some (p, .lent, anyPayload) | .lrem p => some (p, .lrem, anyPayload)
  | .lpri p => some (p, .lpri, anyPayload) | .lsht p => some (p, .lsht, anyPayload)
  | .qlotSummary p => some (p, .qlot, fun b => viewOf b = .summary)
  | .qlotCounts p => some (p, .qlot, fun b => viewOf b = .counts)
  | .qlotHolds p => some (p, .qlot, fun b => viewOf b = .holds)
  | .qlotList p => some (p, .qlot, fun b => viewOf b = .list)
  | .hold p => some (p, .hold, anyPayload) | .hclr p => some (p, .hclr, anyPayload)
  | .hovc p => some (p, .hovc, anyPayload) | .cdck p => some (p, .cdck, anyPayload)
  | .cund p => some (p, .cund, anyPayload) | .crdk p => some (p, .crdk, anyPayload)
  | .cmod p => some (p, .cmod, anyPayload) | .csen p => some (p, .csen, anyPayload)
  | .qcel p => some (p, .qcel, anyPayload) | .cunb p => some (p, .cunb, anyPayload)
  | .qeqp p => some (p, .qeqp, fun b => !asksForList b) | .qeqpList p => some (p, .qeqp, asksForList)
  | .stak p => some (p, .stak, anyPayload) | .sarm p => some (p, .sarm, anyPayload)
  | .qres p => some (p, .qres, anyPayload) | .rlse p => some (p, .rlse, anyPayload)
  | .clks p => some (p, .clks, anyPayload) | .wprd p => some (p, .wprd, anyPayload)
  | .wbpl p => some (p, .wbpl, anyPayload) | .wpar p => some (p, .wpar, anyPayload)
  | .wwin p => some (p, .wwin, anyPayload) | .crdy p => some (p, .crdy, anyPayload)
  | .csav p => some (p, .csav, anyPayload) | .frst p => some (p, .frst, anyPayload)
  | .eann p => some (p, .eann, anyPayload) | .eabl p => some (p, .eabl, anyPayload)
  | .ecnf p => some (p, .ecnf, anyPayload) | .epld p => some (p, .epld, anyPayload)
  | .eldf p => some (p, .eldf, anyPayload) | .etmp p => some (p, .etmp, anyPayload)
  | .ernd p => some (p, .ernd, anyPayload) | .ebin p => some (p, .ebin, anyPayload)
  | .sens p => some (p, .sens, anyPayload) | .psta p => some (p, .psta, anyPayload)
  | .unknownCode _ => none
  | .powerOnReset _ | .floorReset | .startUpLoad _ | .storeLoadReattempt _ | .storeWrite _ => none
  | .frameComplete _ _ | .lengthBelow6 _ _ | .gapAbort _ | .frameSent _ | .receivedByte _ _ => none
  | .secondsTick | .minuteTick | .entryStale _ | .entryRemoval _ | .soakEnd _ => none
  | .negotiationDeadlineExpiry _ | .loadDeadlineExpiry _ | .settleDeadlineExpiry _
  | .closeDeadlineExpiry _ => none

/-- A request that passes steps 1 to 4 of R8 on a supervisor's port: no start-up load runs, the port may make
it, and its source id is 0. -/
def State.Asks (s : State) (p : Port) (r : Req) (payload : List Byte) : Prop :=
  s.Quiet ∧ s.configState ≠ .loading ∧ supervisor p = true ∧ r.permitted p = true ∧ s.InService p r 0 payload

/-- A request that reaches step 4 of R8 on an equipment port from the nonzero id `id`. -/
def State.Speaks (s : State) (p : Port) (r : Req) (id : Id) (payload : List Byte) : Prop :=
  s.Quiet ∧ s.configState ≠ .loading ∧ supervisor p = false ∧ r.permitted p = true ∧ id ≠ 0
    ∧ s.InService p r id payload

/-- A request that passes steps 1 to 4 of R8 on an equipment port: its sender has the entry `e` at position
`i`, and the arrival port is the entry's or has room for it (R23). -/
def State.Sends (s : State) (p : Port) (r : Req) (id : Id) (payload : List Byte) (i : Position) (e : Entry) :
    Prop :=
  s.Speaks p r id payload ∧ s.find id = some (i, e) ∧ (e.port = p ∨ s.portCount p < Config.entriesPerPort)

/-- The sender's entry after its refresh by a request that arrived on `p` (R24). -/
def State.refresh (s : State) (i : Position) (e : Entry) (p : Port) : State :=
  s.setEntry i (some { e with age := 0, state := .present, port := p })

/-- The command's row examines the request in service on its port: `i` is a row of request `r` on `p` whose
payload is one of the row's. -/
def Examines (i : Instr) (s : State) (p : Port) (r : Req) (src : Id) (payload : List Byte) : Prop :=
  ∃ mine, requestOf i = some (p, r, mine) ∧ mine payload = true ∧ s.InService p r src payload

/-! ## Responses -/

/-- The request in service on `p` was answered, from `s` to `t`, with this payload (R10). -/
def Answered (s t : State) (p : Port) (payload : List Byte) : Prop :=
  (t.port p).service = (s.port p).service.map fun v => { v with progress := .answered payload }

/-- It was answered GOOD with these data, and the sense record is clear (R10, R11). -/
def AnsweredGood (s t : State) (p : Port) (data : List Byte) : Prop :=
  Answered s t p (0x00 :: data) ∧ (t.port p).sense = ⟨.none, 0, none⟩

/-- It was answered BUSY by its owner, and the sense record is clear (R10, R11). -/
def AnsweredBusy (s t : State) (p : Port) : Prop :=
  Answered s t p [0x01] ∧ (t.port p).sense = ⟨.none, 0, none⟩

/-- It was answered CHECK, and the sense record took code, argument and mnemonic (R10, R11). -/
def AnsweredCheck (s t : State) (p : Port) (r : Option Req) (code : SenseCode) (a : BitVec 32) : Prop :=
  Answered s t p (0x02 :: code.byte :: be32 a) ∧ (t.port p).sense = ⟨code, a, r⟩

/-- A response was given on `p` and nothing else of the part changed: of that port its service slot, its sense record
and what its idle line began, of the other ports and the records nothing (R10, R11, R16). -/
def OnlyAnswered (s t : State) (p : Port) : Prop :=
  t = { s with ports := t.ports } ∧ (∀ q, q ≠ p → t.port q = s.port q)
    ∧ t.port p =
      { s.port p with service := (t.port p).service, sense := (t.port p).sense, line := (t.port p).line }

/-- The receiving side of a port unit: everything that neither a response nor a notice touches. -/
def PortUnit.SameIntake (u v : PortUnit) : Prop :=
  v.receiver = u.receiver ∧ v.intake = u.intake ∧ v.holdOff = u.holdOff ∧ v.overrunLatch = u.overrunLatch
    ∧ v.crcErrors = u.crcErrors ∧ v.gapAborts = u.gapAborts ∧ v.overruns = u.overruns

/-! ## Invariants -/

/-- The notices an outbox counts: those unsent and the one on the line (R14, R15). -/
def PortUnit.outbox (u : PortUnit) : Nat := u.unsent.length + (if u.sending.isSome then 1 else 0)

/-- The frame on the line is a notice of the outbox. -/
def PortUnit.sendsNotice (u : PortUnit) : Bool := (u.line.map fun l => decide (l.use = .notice)).getD false

/-- A receiver in BODY collects a frame of a length from 6 and lacks at least one byte of it (R2). -/
def Receiver.Sound : Receiver → Prop
  | .hunting | .synced | .header => True
  | .body length got => 6 ≤ length ∧ got.length < length + 3

/-- A port unit within the limits of chapter 1: the intake room (R5), the flow slot that agrees with the
hold-off flag (R6), the rooms and the coalescing of the outbox (R13 to R15), the notice on the line in the
sending place, and counters that saturate (R17). -/
structure PortUnit.Sound (sup : Bool) (u : PortUnit) : Prop where
  receiver  : u.receiver.Sound
  intake    : u.intake.length ≤ 8
  hoff      : u.flow = some .hoff → u.holdOff = true
  rsum      : u.flow = some .rsum → u.holdOff = false
  room      : if sup then u.outbox ≤ 16 else u.unsent.length ≤ 1
  coalesced : (u.unsent.map Notice.key).Nodup
  sending   : u.sending.isSome = u.sendsNotice
  counters  : u.crcErrors ≤ 65535 ∧ u.gapAborts ≤ 65535 ∧ u.overruns ≤ 65535

/-- Every port unit is within its limits. -/
def State.PortsSound (s : State) : Prop := ∀ p, (s.port p).Sound (supervisor p)

/-- A lot's account (R56, R59): its units balance, T1 + D is at most S, pass 0 is over in every later pass,
and the pools of a lot that has left test are zero with T1 + D equal to S. -/
structure Lot.Sound (l : Lot) : Prop where
  balance : l.final.total + l.poolNow.total + l.poolNext.total = l.tested
  bounded : l.tested + l.lost ≤ l.started
  sized   : 1 ≤ l.started ∧ l.started ≤ 65535
  passed  : l.pass ≠ 0 → l.tested + l.lost = l.started
  closed  : l.state = .tested ∨ l.state = .sampling ∨ l.state = .accepted ∨ l.state = .released →
    l.poolNow.total = 0 ∧ l.poolNext.total = 0 ∧ l.tested + l.lost = l.started

/-- The lot table (R55, R56, R59, R60): at most 256 lots, no two of one id, each one's account in order. -/
structure State.LotsSound (s : State) : Prop where
  room  : s.lots.length ≤ 256
  ids   : (s.lots.map Lot.id).Nodup
  sound : ∀ l ∈ s.lots, l.Sound

/-- The key of a hold record (R136). -/
def HoldRecord.key (h : HoldRecord) : Id × HoldKind × Nat := (h.lot, h.kind, h.arg)

/-- The hold list (R137): at most 64 records, no two of one key, every record naming a lot of the table, and
every lot's hold count the number of its records. -/
structure State.HoldsSound (s : State) : Prop where
  room  : s.holds.length ≤ 64
  keys  : (s.holds.map HoldRecord.key).Nodup
  lots  : ∀ h ∈ s.holds, ∃ l ∈ s.lots, l.id = h.lot
  count : ∀ l ∈ s.lots, l.holdCount = (s.holds.filter fun h => h.lot = l.id).length

/-- The release queue (R162, R163): at most 32 records, all of them in the offer state of the gate; it holds
exactly the lots in RELEASED, each once, and none of them is held. -/
structure State.ReleaseSound (s : State) : Prop where
  room   : s.shipments.length ≤ 32
  offer  : ∀ r ∈ s.shipments, r.offer = if s.clock.releaseGate = .closed then .queued else .offered
  once   : (s.shipments.map Shipment.lot).Nodup
  exact  : ∀ id, (∃ r ∈ s.shipments, r.lot = id) ↔ ∃ l ∈ s.lots, l.id = id ∧ l.state = .released
  unheld : ∀ l ∈ s.lots, l.state = .released → l.unheld = true

/-- The dispatch queue holds exactly the lots that are WAITING and unheld, each once (R74). -/
structure State.QueueSound (s : State) : Prop where
  once  : (s.queue.map Waiting.lot).Nodup
  exact : ∀ id, (∃ w ∈ s.queue, w.lot = id) ↔ ∃ l ∈ s.lots, l.id = id ∧ l.state = .waiting ∧ l.unheld = true

/-- A run record's parts by the cell's state (R102 to R107): the stop flag is clear while RUNNING and set while
STOPPING, and the handler's count, the end reason and the close deadline stand exactly while CLOSING. -/
structure Run.Fits (r : Run) (st : CellState) : Prop where
  running  : st = .running → r.stopFlag = false
  stopping : st = .stopping → r.stopFlag = true
  count    : r.handlerCount.isSome = true ↔ st = .closing
  reason   : r.endReason.isSome = true ↔ st = .closing
  deadline : r.closeDeadline.isSome = true ↔ st = .closing

/-- A cell's parts are present exactly in the states of the table of 3.2 (R34): the members unless VACANT, the
negotiation record in OFFER and CONFIRM and its proposed capability in CONFIRM, the preparation record in
PREPARING, the run record in RUNNING, STOPPING and CLOSING, the fault reason in FAULT; a bound lot in the working
states and none in VACANT and IDLE; the common capability in every state with or ready for a lot, with the active
sites among its own. -/
structure Cell.Sound (x : Cell) : Prop where
  handler     : x.handler = none ↔ x.state = .vacant
  tester      : x.tester = none ↔ x.state = .vacant
  negotiation : x.negotiation.isSome = true ↔ x.state = .offer ∨ x.state = .confirm
  proposed    : ∀ n, x.negotiation = some n → (n.proposed.isSome = true ↔ x.state = .confirm)
  preparation : x.preparation.isSome = true ↔ x.state = .preparing
  run         : x.run.isSome = true ↔ x.state = .running ∨ x.state = .stopping ∨ x.state = .closing
  fits        : ∀ r, x.run = some r → r.Fits x.state
  fault       : x.fault.isSome = true ↔ x.state = .fault
  working     : x.state ∈ [CellState.preparing, .running, .stopping, .closing, .paused] → x.bound ≠ none
  free        : x.state = .vacant ∨ x.state = .idle → x.bound = none
  formed      : x.state ∈ [CellState.idle, .preparing, .running, .stopping, .closing, .paused] → x.common ≠ none
  sites       : subset x.active ((x.common.map Capability.sites).getD 0) = true

/-- Lots and cells agree (3.2, R57, R59): a lot is BOUND exactly while it names a cell, that cell names it, the lot
a cell names is in the table and names the cell, and a bound lot is unheld in RUNNING and held in PAUSED. -/
structure State.BindingSound (s : State) : Prop where
  cells   : ∀ c, (s.cell c).Sound
  bound   : ∀ l ∈ s.lots, (l.state = .bound ↔ l.cell ≠ none)
  named   : ∀ l ∈ s.lots, ∀ c, l.cell = some c → (s.cell c).bound = some l.id
  names   : ∀ c id, (s.cell c).bound = some id → ∃ l ∈ s.lots, l.id = id ∧ l.cell = some c
  running : ∀ l ∈ s.lots, ∀ c, l.cell = some c → (s.cell c).state = .running → l.unheld = true
  paused  : ∀ l ∈ s.lots, ∀ c, l.cell = some c → (s.cell c).state = .paused → l.unheld = false

/-- The equipment table (R20, R23, R30): no id twice, none of them 0, ports 2 to 33, at most 4 entries on a port,
ages that saturate; the members a cell names are entries of their kinds with that membership, and an entry with a
membership is named by that cell. -/
structure State.EquipmentSound (s : State) : Prop where
  ids     : ∀ i j e f, s.entry i = some e → s.entry j = some f → e.id = f.id → i = j
  range   : ∀ i e, s.entry i = some e → e.id ≠ 0 ∧ 2 ≤ e.port.val ∧ e.age ≤ 65535
  ports   : ∀ p, s.portCount p ≤ 4
  handler : ∀ c id, (s.cell c).handler = some id →
    ∃ i e, s.entry i = some e ∧ e.id = id ∧ e.membership = some c ∧ e.ability.kind = .handler
  tester  : ∀ c id, (s.cell c).tester = some id →
    ∃ i e, s.entry i = some e ∧ e.id = id ∧ e.membership = some c ∧ e.ability.kind = .tester
  member  : ∀ i e c, s.entry i = some e → e.membership = some c →
    (s.cell c).handler = some e.id ∨ (s.cell c).tester = some e.id

/-- The floor clock (R170, R172): the seconds count is 0 to 59 and the period minute 0 to P. -/
structure State.ClockSound (s : State) : Prop where
  seconds : s.clock.seconds ≤ 59
  minute  : s.clock.minute ≤ s.tables.parameters.period

/-- A safe run of the part is one in which every limit the rules set on its records holds throughout. -/
structure State.Sound (s : State) : Prop where
  ports     : s.PortsSound
  lots      : s.LotsSound
  holds     : s.HoldsSound
  release   : s.ReleaseSound
  queue     : s.QueueSound
  binding   : s.BindingSound
  equipment : s.EquipmentSound
  clock     : s.ClockSound

end Sys2Proof.Machine
end

