-- ==== Sys2Proof/Certificates/Slice0/Obligations.lean ====
section
/-! DEFINITION. What is claimed of the FD48: statements for the provers, each formalising what numbered rules of
spec/ say of a command or of the whole part. A statement about a request speaks of the request in service
(`State.Asks`, `State.Sends`), whose payload is written out by Machine/Payloads.lean, and gives the next state
as the records the rules change, answered on the arrival port (`State.answer`, which
`Obligations.AnswerWritesResponseAndSense` describes). -/

open Sys2Proof Sys2Proof.Machine

/-! ## The machine as a whole -/

/-- A step carries out the command at the front of the queue with the queue's rest. With none waiting the
block idles: the model's choice (log 1). No command stops the part, and no command touches the commands that
wait. -/
def Obligations.StepTakesFrontCommandWhichCompletes : Prop :=
  (∀ (i : Instr) (rest : List Instr) (s : State),
    step { s with pending := i :: rest } = exec i { s with pending := rest })
  ∧ (∀ s : State, s.pending = [] → step s = .next s)
  ∧ ∀ (i : Instr) (s : State), ∃ t, exec i s = .next t ∧ t.pending = s.pending

/-- A power-on reset leaves every record at its reset value (R19, R22, R35, R60, R74, R137, R162, R166, R179,
R181, R183), which is `State.reset` but for the external store, which a cut store write alone touches (R193),
and the commands that wait. -/
def Obligations.PowerOnResetLeavesResetState : Prop :=
  ∀ (cut : WriteCut) (s : State), ∃ t, exec (.powerOnReset cut) s = .next t
    ∧ (∀ p, t.port p =
        { receiver := .hunting, intake := [], service := none, sense := ⟨.none, 0, none⟩, holdOff := false,
          flow := none, sending := none, unsent := [], line := none, overrunLatch := false,
          noticeLost := false, crcErrors := 0, gapAborts := 0, overruns := 0 })
    ∧ (∀ i, t.entry i = none)
    ∧ (∀ c, t.cell c =
        { state := .vacant, mode := .maintenance, handler := none, tester := none, common := none, active := 0,
          failed := none, bound := none, fault := none, negotiation := none, thermal := ⟨none, false, 0⟩,
          preparation := none, run := none, loadRequest := none })
    ∧ t.lots = [] ∧ t.sequence = 1 ∧ t.queue = [] ∧ t.holds = [] ∧ t.shipments = [] ∧ t.armed = true
    ∧ t.clock = ⟨0, 0, 0, .ungated, .ungated⟩ ∧ t.configState = .loading
    ∧ (∀ i : Fin 32, (t.tables.products[i]).defined = false)
    ∧ (∀ (i : Fin 8) (b : Fin 16), (t.tables.plans[i])[b] = ⟨.fail, 10000⟩)
    ∧ t.tables.parameters = ⟨120, 5, 600, 900, 20, 30, 1, 1439, none⟩
    ∧ (∀ i : Fin 4, t.tables.windows[i] = ⟨.dispatch, 0, 0⟩)
    ∧ t = { State.reset with store := t.store, pending := s.pending }
    ∧ (s.storeJob ≠ some .write → t.store = s.store)
    ∧ (s.storeJob = some .write → t.store = match cut with
        | .beforeMarker => s.store
        | .afterMarkerGood => ⟨true, true, s.tables⟩
        | .afterMarkerBad => ⟨true, false, s.tables⟩)

/-- The state after reset meets every invariant. -/
def Obligations.ResetStateMeetsInvariants : Prop := State.reset.Sound

/-- FRST is answered GOOD and acts only when its response has been sent: the last character of that response
brings the floor reset about, and the floor reset clears the floor, keeps the clock's counts, the tables, the
latches and the counters, and releases every partner that was held off (R19, R194). -/
def Obligations.FrstResetsFloorAfterItsResponse : Prop :=
  (∀ s : State, s.Asks 0 .frst [] → ∃ t, exec (.frst 0) s = .next t ∧ OnlyAnswered s t 0 ∧ AnsweredGood s t 0 [])
  ∧ (∀ (s : State) (bytes rest : List Byte) (f : Frame) (d : Nat), s.Quiet →
      (s.port 0).line = some ⟨.response, bytes⟩ →
      (s.port 0).service = some ⟨f, d, .answered (0x00 :: rest)⟩ → Req.ofCode f.code = some .frst →
      ∃ t, exec (.frameSent 0) s = .next t ∧ t.due = [.floorReset]
        ∧ t.port 0 = { s.port 0 with service := none, line := none }
        ∧ t = { s with ports := t.ports, due := t.due } ∧ ∀ q, q ≠ 0 → t.port q = s.port q)
  ∧ ∀ s : State, Due.floorReset ∈ s.due → ∃ t, exec .floorReset s = .next t
      ∧ (∀ i, t.entry i = none) ∧ (∀ c, t.cell c = Cell.vacant) ∧ t.lots = [] ∧ t.sequence = 1 ∧ t.queue = []
      ∧ t.holds = [] ∧ t.shipments = [] ∧ t.armed = true
      ∧ t.clock = { s.clock with dispatchGate := .ungated, releaseGate := .ungated }
      ∧ t.tables = s.tables ∧ t.store = s.store ∧ t.configState = .loading ∧ t.pending = s.pending
      ∧ ∀ p, (t.port p).receiver = .hunting ∧ (t.port p).intake = [] ∧ (t.port p).service = none
        ∧ (t.port p).sense = ⟨.none, 0, none⟩ ∧ (t.port p).holdOff = false
        ∧ (t.port p).sending = none ∧ (t.port p).unsent = []
        ∧ (t.port p).overrunLatch = (s.port p).overrunLatch ∧ (t.port p).noticeLost = (s.port p).noticeLost
        ∧ (t.port p).crcErrors = (s.port p).crcErrors ∧ (t.port p).gapAborts = (s.port p).gapAborts
        ∧ (t.port p).overruns = (s.port p).overruns
        ∧ (∀ l, (s.port p).line = some l → (t.port p).line = some ⟨.leftOver, l.bytes⟩)
        ∧ ((s.port p).holdOff = true → (s.port p).flow = some .hoff → (t.port p).flow = none)
        ∧ ((s.port p).holdOff = true → (s.port p).flow ≠ some .hoff → (s.port p).line ≠ none →
            (t.port p).flow = some .rsum)
        ∧ ((s.port p).holdOff = true → (s.port p).flow ≠ some .hoff → (s.port p).line = none →
            (t.port p).flow = none ∧ (t.port p).line = some ⟨.flow, frameBytes 0x03 0x4E 0 0 []⟩)

/-- The start-up load installs a good store and otherwise clears the tables; M and the gates follow (R179,
R183, R184). A request that was taken into service while it lasted and is not examined yet is marked as one that is
answered BUSY; the rest of each port stands. The queues are empty while the load lasts, as every reset leaves them. -/
def Obligations.StartUpLoadInstallsOrClears : Prop :=
  ∀ (reply : StoreReply) (s : State), s.Quiet → s.configState = .loading → s.queue = [] → s.shipments = [] →
    let good : Bool := decide (reply = .answers) && s.store.marker && s.store.crcGood
    let tables := if good then s.store.tables else Tables.cleared
    let m := if tables.parameters.period < s.clock.minute then 0 else s.clock.minute
    1 ≤ tables.parameters.attention →
    exec (.startUpLoad reply) s = .next
      { s with
        ports := s.ports.map fun u : PortUnit =>
          { u with
            service := u.service.map fun v : Service =>
              if v.progress = .taken then { v with progress := .takenInLoad } else v }
        tables := tables
        configState := if good then .configured else .unconfigured
        clock := { s.clock with
          minute := m
          dispatchGate := gateAt tables.windows.toList .dispatch m
          releaseGate := gateAt tables.windows.toList .release m } }

/-- The end of a re-attempt of the store load: a bad store leaves the tables and refuses the waiting request
NOT CONFIGURED; a good one is installed and the waiting LENT or CDCK is taken on the new tables (R186): whatever its
owner makes of it there is its answer, and a CDCK of a VACANT cell and two free, PRESENT entries of the two kinds is
accepted (R37). -/
def Obligations.ReattemptInstallsOrRefuses : Prop :=
  ∀ (reply : StoreReply) (s : State) (v : Service), s.Quiet → s.storeJob = some .reattempt →
    (s.port 0).service = some v →
    let good : Bool := decide (reply = .answers) && s.store.marker && s.store.crcGood
    (good = false → ∃ t, exec (.storeLoadReattempt reply) s = .next t
      ∧ t = { s with ports := t.ports, storeJob := none } ∧ (∀ q, q ≠ 0 → t.port q = s.port q)
      ∧ AnsweredCheck s t 0 (Req.ofCode v.frame.code) .notConfigured 0)
    ∧ (good = true → s.queue = [] → s.shipments = [] → 1 ≤ s.store.tables.parameters.attention →
      let m := if s.store.tables.parameters.period < s.clock.minute then 0 else s.clock.minute
      let installed : State :=
        { s with
          storeJob := none
          tables := s.store.tables
          configState := .configured
          clock := { s.clock with
            minute := m
            dispatchGate := gateAt s.store.tables.windows.toList .dispatch m
            releaseGate := gateAt s.store.tables.windows.toList .release m } }
      (∀ a : LentFields, Req.ofCode v.frame.code = some .lent → readLent v.frame.payload = .ok a →
        (s.store.tables.products[a.product]).defined = false →
        exec (.storeLoadReattempt reply) s = .next (installed.answer 0 (some .lent) (.check .field 12)))
      ∧ (∀ (a : LentFields) (out : State × Reply), Req.ofCode v.frame.code = some .lent →
        readLent v.frame.payload = .ok a → lentConfigured v.frame a installed = out →
        exec (.storeLoadReattempt reply) s = .next (out.1.answer 0 (some .lent) out.2))
      ∧ (∀ (c : CellNo) (h t : Id), Req.ofCode v.frame.code = some .cdck →
        readCdck v.frame.payload = .ok (c, h, t) → (s.cell c).state = .vacant → s.equip h = none →
        exec (.storeLoadReattempt reply) s =
          .next (installed.answer 0 (some .cdck) (.check .unknownEquipment h)))
      ∧ (∀ (a : CellNo × Id × Id) (out : State × Reply), Req.ofCode v.frame.code = some .cdck →
        readCdck v.frame.payload = .ok a → cdckConfigured v.frame a installed = out →
        exec (.storeLoadReattempt reply) s = .next (out.1.answer 0 (some .cdck) out.2))
      ∧ ∀ (c : CellNo) (h t : Id) (e f : Entry) (i j : Position), Req.ofCode v.frame.code = some .cdck →
        readCdck v.frame.payload = .ok (c, h, t) → (s.cell c).state = .vacant → s.find h = some (i, e) →
        s.find t = some (j, f) → e.state = .present → f.state = .present → e.ability.kind = .handler →
        f.ability.kind = .tester → e.membership = none → f.membership = none →
        exec (.storeLoadReattempt reply) s = .next (((((installed.setEntry i
            (some { e with membership := some c })).setEntry j (some { f with membership := some c })).setCell c
              { s.cell c with handler := some h, tester := some t, mode := .maintenance }).enterOffer c).answer 0
          (some .cdck) (.good [])))

/-- CSAV is refused while the configuration is not CONFIGURED; otherwise the request waits for the store write,
whose end leaves the tables in the store, or no valid set (R192). That the format marker is already erased in the
event that takes the CSAV is the model's choice (log 21). -/
def Obligations.SaveWritesStoreOrErasesMarker : Prop :=
  (∀ s : State, s.Asks 0 .csav [] → s.configState = .unconfigured → ∃ t, exec (.csav 0) s = .next t
    ∧ OnlyAnswered s t 0 ∧ AnsweredCheck s t 0 (some .csav) .notConfigured 0)
  ∧ (∀ s : State, s.Asks 0 .csav [] → s.configState = .configured → ∃ t, exec (.csav 0) s = .next t
    ∧ t = { s with ports := t.ports, storeJob := some .write, store := { s.store with marker := false } }
    ∧ (∀ q, q ≠ 0 → t.port q = s.port q) ∧ (t.port 0).sense = (s.port 0).sense
    ∧ (t.port 0).service = (s.port 0).service.map fun v => { v with progress := .waiting })
  ∧ ∀ (result : ReadBack) (s : State), s.Quiet → s.storeJob = some .write → ∃ t,
    exec (.storeWrite result) s = .next t ∧ (∀ q, q ≠ 0 → t.port q = s.port q)
    ∧ (result = .same → t = { s with ports := t.ports, storeJob := none, store := ⟨true, true, s.tables⟩ }
        ∧ AnsweredGood s t 0 [s.configState.byte])
    ∧ (result ≠ .same →
        t = { s with ports := t.ports, storeJob := none, store := { s.store with marker := false } }
        ∧ AnsweredCheck s t 0 (some .csav) .storeError 0)

/-- While the store is loaded at start-up every request is answered BUSY with sense START-UP and has no
further effect, SENS and PSTA included, and a code that is none's leaves a blank mnemonic (R8, R11, R184). So is a
request that was taken into service during the load and whose command comes after its end, in every configuration
state. That FRST is answered so too is the model's inference (log 34). -/
def Obligations.StartUpAnswersBusy : Prop :=
  (∀ (i : Instr) (s : State) (p : Port) (r : Req) (src : Id) (payload : List Byte), s.Quiet →
    s.configState = .loading → Examines i s p r src payload → ∃ t, exec i s = .next t ∧ OnlyAnswered s t p
    ∧ Answered s t p [0x01] ∧ (t.port p).sense = ⟨.startUp, 0, some r⟩)
  ∧ (∀ (i : Instr) (s : State) (p : Port) (r : Req) (mine : List Byte → Bool) (v : Service), s.Quiet →
    requestOf i = some (p, r, mine) → (s.port p).service = some v → v.progress = .takenInLoad →
    Req.ofCode v.frame.code = some r → mine v.frame.payload = true → ∃ t, exec i s = .next t ∧ OnlyAnswered s t p
    ∧ Answered s t p [0x01] ∧ (t.port p).sense = ⟨.startUp, 0, some r⟩)
  ∧ ∀ (s : State) (p : Port) (v : Service), s.Quiet → (s.port p).service = some v →
    (s.configState = .loading ∧ v.progress = .taken) ∨ v.progress = .takenInLoad → Req.ofCode v.frame.code = none →
    ∃ t, exec (.unknownCode p) s = .next t ∧ OnlyAnswered s t p ∧ Answered s t p [0x01]
    ∧ (t.port p).sense = ⟨.startUp, 0, none⟩

/-- The checks of R8 before the payload's: an unknown code, a port that may not make the request (R18), a
source id that the port does not take, a sender the table does not know, and a sender that would be a fifth
entry of its port (R23). Each refusal changes nothing but the answer. -/
def Obligations.CodePortAndSenderChecked : Prop :=
  (∀ p : Port, (∀ r ∈ [Req.lent, .lrem, .lpri, .lsht, .hovc, .cdck, .cund, .crdk, .cmod, .csen, .qcel, .cunb,
      .qeqp, .stak, .sarm, .clks, .wprd, .wbpl, .wpar, .wwin, .crdy, .csav, .frst],
        r.permitted p = decide (p = 0))
    ∧ (∀ r ∈ [Req.qlot, .hold, .hclr], r.permitted p = decide (p.val ≤ 1))
    ∧ (∀ r ∈ [Req.qres, .rlse], r.permitted p = decide (p = 1))
    ∧ (∀ r ∈ [Req.eann, .eabl, .ecnf, .epld, .eldf, .etmp, .ernd, .ebin], r.permitted p = decide (2 ≤ p.val))
    ∧ ∀ r ∈ [Req.sens, .psta], r.permitted p = true)
  ∧ (∀ (s : State) (p : Port) (v : Service), s.Quiet → s.configState ≠ .loading →
      (s.port p).service = some v → v.progress = .taken → Req.ofCode v.frame.code = none →
      ∃ t, exec (.unknownCode p) s = .next t ∧ OnlyAnswered s t p ∧ AnsweredCheck s t p none .field 2)
  ∧ ∀ (i : Instr) (s : State) (p : Port) (r : Req) (src : Id) (payload : List Byte), s.Quiet →
    s.configState ≠ .loading → Examines i s p r src payload → ∃ t, exec i s = .next t
      ∧ (r.permitted p = false →
          OnlyAnswered s t p ∧ AnsweredCheck s t p (some r) .notPermitted (BitVec.ofNat 32 p.val))
      ∧ (r.permitted p = true → p.val ≤ 1 → src ≠ 0 →
          OnlyAnswered s t p ∧ AnsweredCheck s t p (some r) .field 4)
      ∧ (r.permitted p = true → 2 ≤ p.val → src = 0 →
          OnlyAnswered s t p ∧ AnsweredCheck s t p (some r) .field 4)
      ∧ (r.permitted p = true → 2 ≤ p.val → src ≠ 0 → s.find src = none → r ≠ .eann →
          OnlyAnswered s t p ∧ AnsweredCheck s t p (some r) .unknownEquipment src)
      ∧ (∀ j e, r.permitted p = true → 2 ≤ p.val → src ≠ 0 → s.find src = some (j, e) → e.port ≠ p →
          4 ≤ s.portCount p → OnlyAnswered s t p ∧ AnsweredCheck s t p (some r) .tableFull 0)

/-- Payloads of the wrong shape or range are refused FIELD with the offset of the lowest offending field and
reach no record (R9): any byte after a request that carries none, a lot id that is cut short, 0 or followed
by more, a cell number that is missing, above 15 or followed by more; and every request on every port, by the format and
the ranges of its entry (`Req.format`: 4.4, R21, R37, R45, R47, R66, R68 to R70, R98, R105, R115, R116, R141, R145,
R156, R174, R182, R187 to R190). On an equipment port a known sender's entry is refreshed by the refusal and a return
reported, except by EANN (R24). The entries of these requests state no range for the lot id and the cell number: that an
id of 0 and a number above 15 are refused FIELD is the model's inference (log 9), as are the lowest offset of an ability
record's offending fields (log 10) and the free echo of ECNF (log 11); the byte order of temperatures is its choice
(log 35). -/
def Obligations.PayloadShapeChecked : Prop :=
  (∀ (i : Instr) (s : State) (p : Port) (b : Byte) (rest : List Byte),
    i = .stak p ∨ i = .sarm p ∨ i = .crdy p ∨ i = .csav p ∨ i = .frst p ∨ i = .sens p ∨ i = .psta p →
    ∀ r mine, requestOf i = some (p, r, mine) → s.Asks p r (b :: rest) →
    ∃ t, exec i s = .next t ∧ OnlyAnswered s t p ∧ AnsweredCheck s t p (some r) .field 8)
  ∧ (∀ (i : Instr) (s : State) (p : Port) (payload : List Byte),
    i = .lrem p ∨ i = .lsht p ∨ i = .hovc p ∨ i = .rlse p →
    ∀ r mine, requestOf i = some (p, r, mine) → s.Asks p r payload →
    ∃ t, exec i s = .next t
      ∧ (payload.length < 4 → OnlyAnswered s t p ∧ AnsweredCheck s t p (some r) .field 8)
      ∧ (payload.take 4 = [0, 0, 0, 0] → OnlyAnswered s t p ∧ AnsweredCheck s t p (some r) .field 8)
      ∧ (4 < payload.length → payload.take 4 ≠ [0, 0, 0, 0] →
          OnlyAnswered s t p ∧ AnsweredCheck s t p (some r) .field 12))
  ∧ (∀ (i : Instr) (s : State) (payload : List Byte),
    i = .cund 0 ∨ i = .crdk 0 ∨ i = .qcel 0 ∨ i = .cunb 0 →
    ∀ r mine, requestOf i = some (0, r, mine) → s.Asks 0 r payload →
    ∃ t, exec i s = .next t
      ∧ (payload = [] → OnlyAnswered s t 0 ∧ AnsweredCheck s t 0 (some r) .field 8)
      ∧ (∀ b rest, payload = b :: rest → 16 ≤ b.toNat →
          OnlyAnswered s t 0 ∧ AnsweredCheck s t 0 (some r) .field 8)
      ∧ (∀ b c rest, payload = b :: c :: rest → b.toNat < 16 →
          OnlyAnswered s t 0 ∧ AnsweredCheck s t 0 (some r) .field 9))
  ∧ (∀ (i : Instr) (s : State) (p : Port) (r : Req) (mine : List Byte → Bool) (payload : List Byte) (n : Nat),
    requestOf i = some (p, r, mine) → mine payload = true → offence (r.format payload) 8 payload = some n →
    s.Asks p r payload →
    ∃ t, exec i s = .next t ∧ OnlyAnswered s t p ∧ AnsweredCheck s t p (some r) .field (BitVec.ofNat 32 n))
  ∧ (∀ (i : Instr) (s : State) (p : Port) (r : Req) (mine : List Byte → Bool) (payload : List Byte) (n : Nat)
    (id : Id) (j : Position) (e : Entry),
    requestOf i = some (p, r, mine) → mine payload = true → offence (r.format payload) 8 payload = some n → r ≠ .eann →
    s.Sends p r id payload j e →
    exec i s = .next (((s.refresh j e p).reportReturn e.returnsTo id).answer p (some r)
      (.check .field (BitVec.ofNat 32 n))))
  ∧ ∀ (s : State) (p : Port) (payload : List Byte) (n : Nat) (id : Id),
    offence (Req.format .eann payload) 8 payload = some n → s.Speaks p .eann id payload →
    (∀ j e, s.find id = some (j, e) → e.port = p ∨ s.portCount p < 4) →
    ∃ t, exec (.eann p) s = .next t ∧ OnlyAnswered s t p
      ∧ AnsweredCheck s t p (some .eann) .field (BitVec.ofNat 32 n)

/-! ## The message links (chapters 1 and 2) -/

/-- SENS answers the port's sense record and clears it (R11, R12); PSTA answers the intake depth at its taking,
the hold-off flag, the latches and the counters, and clears the latches and counters (R17, R195). On an
equipment port the sender's entry is refreshed first and a member's return reported after (R24). -/
def Obligations.SenseAndStatusRead : Prop :=
  (∀ (s : State) (p : Port), s.Asks p .sens [] →
    exec (.sens p) s = .next (s.answer p (some .sens) (.good
      ([(s.port p).sense.code.byte] ++ be32 (s.port p).sense.arg ++ mnemonicBytes (s.port p).sense.req))))
  ∧ (∀ (s : State) (p : Port) (id : Id) (i : Position) (e : Entry), s.Sends p .sens id [] i e →
    exec (.sens p) s = .next (((s.refresh i e p).reportReturn e.returnsTo id).answer p (some .sens) (.good
      ([(s.port p).sense.code.byte] ++ be32 (s.port p).sense.arg ++ mnemonicBytes (s.port p).sense.req))))
  ∧ ∀ (s : State) (p : Port) (v : Service), (s.port p).service = some v →
    let u := s.port p
    let cleared : PortUnit :=
      { u with overrunLatch := false, noticeLost := false, crcErrors := 0, gapAborts := 0, overruns := 0 }
    let latches : Byte :=
      (if u.overrunLatch then 0x01 else 0) ||| (if u.noticeLost then 0x02 else 0)
        ||| (if u.holdOff then 0x04 else 0)
    let data := be 1 v.depth ++ [latches] ++ be 2 u.crcErrors ++ be 2 u.gapAborts ++ be 2 u.overruns
    (s.Asks p .psta [] → exec (.psta p) s = .next ((s.setPort p cleared).answer p (some .psta) (.good data)))
    ∧ ∀ (id : Id) (i : Position) (e : Entry), s.Sends p .psta id [] i e →
      exec (.psta p) s = .next ((((s.refresh i e p).setPort p cleared).reportReturn e.returnsTo id).answer p
        (some .psta) (.good data))

/-- An answer gives the request in service its status, data or sense code, sets or clears the port's sense
record, and reaches nothing else: the port's receiving side, its flow slot, its outbox, its latches and its counters
stand, as do the other ports and every record. An idle transmitter begins the response frame, which carries the
request's code, tag and source id; a busy line goes on with its frame (R10, R11, R16, 12.1). -/
def Obligations.AnswerWritesResponseAndSense : Prop :=
  ∀ (s : State) (p : Port) (r : Option Req) (v : Service), (s.port p).service = some v →
    (∀ data, OnlyAnswered s (s.answer p r (.good data)) p ∧ AnsweredGood s (s.answer p r (.good data)) p data)
    ∧ (OnlyAnswered s (s.answer p r .busy) p ∧ AnsweredBusy s (s.answer p r .busy) p)
    ∧ (∀ code a, OnlyAnswered s (s.answer p r (.check code a)) p
        ∧ AnsweredCheck s (s.answer p r (.check code a)) p r code a)
    ∧ ∀ reply, reply ≠ .wait → (s.port p).SameIntake ((s.answer p r reply).port p)
        ∧ ((s.answer p r reply).port p).flow = (s.port p).flow
        ∧ ((s.answer p r reply).port p).sending = (s.port p).sending
        ∧ ((s.answer p r reply).port p).unsent = (s.port p).unsent
        ∧ ((s.answer p r reply).port p).noticeLost = (s.port p).noticeLost
        ∧ ((s.port p).line = none → ((s.answer p r reply).port p).line
            = some ⟨.response, frameBytes 0x02 v.frame.code v.frame.tag v.frame.source reply.payload⟩)
        ∧ ∀ l, (s.port p).line = some l → ((s.answer p r reply).port p).line = some l

/-- A notice routed to a port takes the place of an unsent one of its kind and object, or joins the outbox
while there is room, or is lost and sets the latch (R13, R14, R15). A busy line goes on with its frame; an idle one
takes the next frame by the list of R16, so the notice itself only when no response, no flow notice and no older notice
waits. That it does so at once is the model's choice (log 6). A notice for a piece of equipment goes to its entry's
port, or nowhere when the entry is STALE or absent (R31). NCEL goes to port 0 with the cell's number, state, mode, fault
reason and bound lot (R36); NLOT goes there with the lot's id, state, hold count and overflow flag, the cause, and the
hold's kind and argument (R71). Their bytes follow R195 in that order; the layout of an absent hold is the model's
choice (log 7). -/
def Obligations.NoticeCoalescedPlacedOrLost : Prop :=
  ∀ (s : State) (p : Port) (n : Notice),
    let u := s.port p
    let v := (s.notify p n).port p
    let room : Prop := if p.val ≤ 1 then u.outbox < 16 else u.unsent = []
    let placed (w : PortUnit) : Prop :=
      ((∃ m ∈ u.unsent, m.key = n.key) → w = { u with unsent := u.unsent.map fun m => if m.key = n.key then n else m })
      ∧ ((∀ m ∈ u.unsent, m.key ≠ n.key) → room → w = { u with unsent := u.unsent ++ [n] })
      ∧ ((∀ m ∈ u.unsent, m.key ≠ n.key) → ¬room → w = { u with noticeLost := true })
    (s.notify p n = { s with ports := (s.notify p n).ports })
    ∧ (∀ q, q ≠ p → (s.notify p n).port q = s.port q)
    ∧ (∀ w, placed w →
      (u.line ≠ none → v = w)
      ∧ (∀ f d payload, u.line = none → u.service = some ⟨f, d, .answered payload⟩ →
          v = { w with line := some ⟨.response, frameBytes 0x02 f.code f.tag f.source payload⟩ })
      ∧ (u.line = none → (∀ f d payload, u.service ≠ some ⟨f, d, .answered payload⟩) →
          (∀ g, u.flow = some g → v = { w with flow := none, line := some ⟨.flow, g.bytes⟩ })
          ∧ ∀ m rest, u.flow = none → w.unsent = m :: rest →
            v = { w with
              sending := some m
              unsent := rest
              line := some ⟨.notice, frameBytes 0x03 m.code 0 m.source m.payload⟩ }))
    ∧ (u.line = none → (∀ f d payload, u.service ≠ some ⟨f, d, .answered payload⟩) → u.flow = none →
        u.sending = none → u.unsent = [] →
        v = { u with
          sending := some n
          line := some ⟨.notice, frameBytes 0x03 n.code 0 n.source n.payload⟩ })
    ∧ (∀ id, s.notifyEquip id n = match s.equip id with
        | some e => if e.state = .present then s.notify e.port n else s
        | none => s)
    ∧ (∀ c, ∃ m : Notice, s.ncel c = s.notify 0 m ∧ m.key = (0x49, some c.val) ∧ m.source = 0
      ∧ m.payload = be 1 c.val ++ [(s.cell c).state.byte, (s.cell c).mode.byte]
        ++ (match (s.cell c).fault with
          | some reason => [0x01, reason.byte]
          | none => [0x00, 0x00])
        ++ match (s.cell c).bound with
          | some id => 0x01 :: be32 id
          | none => [0x00, 0x00, 0x00, 0x00, 0x00])
    ∧ ∀ (id : Id) (cause : Cause) (hold : Option (HoldKind × Nat)),
      (s.lot id = none → s.nlot id cause hold = s)
      ∧ ∀ l, s.lot id = some l → ∃ m : Notice, s.nlot id cause hold = s.notify 0 m ∧ m.key = (0x48, some id.toNat)
        ∧ m.source = 0
        ∧ m.payload = be32 id ++ [l.state.byte] ++ be 1 l.holdCount ++ [if l.overflow then 0x01 else 0x00, cause.byte]
          ++ match hold with
            | some h => 0x01 :: h.1.byte :: be 2 h.2
            | none => [0x00, 0x00, 0x00, 0x00]

/-- The transmitter starts, when idle, the response, else the flow slot's notice, else the oldest unsent
notice of the outbox (R16), and the end of a frame frees what it was sent for: the service slot, into which
the head of the intake queue is then taken, or the sending place of the outbox (R6, R7, R14, R15). After a frame that a
FLOOR RESET found on the line, an RSUM in the flow slot goes out before everything else (R19). That the end of a frame
on an idle line is no event (log 3), and that the depth kept for PSTA does not count the frame taken (log 24), are the
model's inferences. -/
def Obligations.TransmitterSendsByPriority : Prop :=
  (∀ u : PortUnit,
    (u.line ≠ none → u.startNext = u)
    ∧ (∀ f d payload, u.line = none → u.service = some ⟨f, d, .answered payload⟩ →
        u.startNext = { u with line := some ⟨.response, frameBytes 0x02 f.code f.tag f.source payload⟩ })
    ∧ (u.line = none → (∀ f d payload, u.service ≠ some ⟨f, d, .answered payload⟩) →
        (∀ w, u.flow = some w → u.startNext = { u with flow := none, line := some ⟨.flow, w.bytes⟩ })
        ∧ (u.flow = none → ∀ n rest, u.unsent = n :: rest →
            u.startNext = { u with sending := some n, unsent := rest, line := some ⟨.notice, n.bytes⟩ })
        ∧ (u.flow = none → u.unsent = [] → u.startNext = u)))
  ∧ ∀ (s : State) (p : Port), s.Quiet →
    let u := s.port p
    let freed : PortUnit := { u with service := none, line := none }
    (u.line = none → exec (.frameSent p) s = .next s)
    ∧ (∀ bytes, u.line = some ⟨.response, bytes⟩ → u.sendsFloorReset = false → u.intake = [] →
        exec (.frameSent p) s = .next (s.setPort p freed.startNext))
    ∧ (∀ bytes f rest, u.line = some ⟨.response, bytes⟩ → u.sendsFloorReset = false → u.intake = f :: rest →
        exec (.frameSent p) s = .next (s.setPort p
          { freed with
            service := some ⟨f, rest.length, .taken⟩
            intake := rest
            holdOff := u.holdOff && decide (rest.length ≠ 2)
            flow := if rest.length = 2 ∧ u.holdOff = true then
                (if u.flow = some Flow.hoff then none else some Flow.rsum) else u.flow }.startNext))
    ∧ (∀ bytes, u.line = some ⟨.notice, bytes⟩ →
        exec (.frameSent p) s = .next (s.setPort p { u with sending := none, line := none }.startNext))
    ∧ (∀ bytes, u.line = some ⟨.flow, bytes⟩ →
        exec (.frameSent p) s = .next (s.setPort p { u with line := none }.startNext))
    ∧ ∀ bytes, u.line = some ⟨.leftOver, bytes⟩ →
        (u.flow = some .rsum → exec (.frameSent p) s = .next (s.setPort p
          { u with flow := none, line := some ⟨.flow, frameBytes 0x03 0x4E 0 0 []⟩ }))
        ∧ (u.flow ≠ some .rsum →
          exec (.frameSent p) s = .next (s.setPort p { u with line := none }.startNext))

/-- The frame receiver moves on each byte as R2 states; a length below 6 and a character gap send it back to
HUNTING with their counts (R2, R3, R17). No other port and no record is touched. That RECEIVED_BYTE does for a length
below 6 and for the last byte of a frame what their own rows do is the model's inference (log 16). -/
def Obligations.ReceiverFollowsBytes : Prop :=
  ∀ (s : State) (p : Port), s.Quiet →
    let u := s.port p
    (∀ b : Byte,
      (u.receiver = .hunting → exec (.receivedByte p b) s =
        .next (s.setPort p (if b = 0x5A then { u with receiver := .synced } else u)))
      ∧ (u.receiver = .synced → exec (.receivedByte p b) s =
        .next (s.setPort p (if b = 0xA5 then { u with receiver := .header }
          else if b = 0x5A then u else { u with receiver := .hunting })))
      ∧ (u.receiver = .header → 6 ≤ b.toNat → exec (.receivedByte p b) s =
        .next (s.setPort p { u with receiver := .body b.toNat [] }))
      ∧ (u.receiver = .header → b.toNat < 6 → exec (.receivedByte p b) s = exec (.lengthBelow6 p b) s
        ∧ exec (.lengthBelow6 p b) s = .next (s.setPort p
          { u with receiver := .hunting, crcErrors := min 65535 (u.crcErrors + 1) }))
      ∧ (∀ n got, u.receiver = .body n got → got.length + 1 < n + 3 → exec (.receivedByte p b) s =
        .next (s.setPort p { u with receiver := .body n (got ++ [b]) }))
      ∧ (∀ n got, u.receiver = .body n got → got.length + 1 = n + 3 →
        exec (.receivedByte p b) s = exec (.frameComplete p b) s))
    ∧ (u.receiver = .hunting → exec (.gapAbort p) s = .next s)
    ∧ (u.receiver ≠ .hunting → exec (.gapAbort p) s = .next (s.setPort p
        { u with receiver := .hunting, gapAborts := min 65535 (u.gapAborts + 1) }))

/-- A complete frame with a bad CRC, or of a type other than REQUEST, is dropped and counted; a good request
joins the intake queue, is taken into an empty service slot, or finds 8 waiting and is discarded with the
overrun count and latch; its joining at depth 6 sets the hold-off flag (R4 to R7). -/
def Obligations.CompleteFrameJudged : Prop :=
  ∀ (s : State) (p : Port) (type code tag : Byte) (src : Id) (payload : List Byte) (c1 c2 : Byte), s.Quiet →
    payload.length ≤ 249 →
    let u := s.port p
    let n := 6 + payload.length
    let body := type :: code :: tag :: (be32 src ++ payload)
    let good : Prop := [c1, c2] = be 2 (crc16 (BitVec.ofNat 8 n :: body)).toNat
    let f : Frame := ⟨code, tag, src, payload⟩
    u.receiver = .body n (body ++ [c1]) →
      (¬good ∨ type ≠ 0x01 → exec (.frameComplete p c2) s = .next (s.setPort p
        { u with receiver := .hunting, crcErrors := min 65535 (u.crcErrors + 1) }))
      ∧ (good → type = 0x01 → u.service = none → u.intake = [] → exec (.frameComplete p c2) s = .next
        (s.setPort p { u with receiver := .hunting, service := some ⟨f, 0, .taken⟩ }.startNext))
      ∧ (good → type = 0x01 → u.service ≠ none → u.intake.length < 8 → exec (.frameComplete p c2) s = .next
        (s.setPort p
          { u with
            receiver := .hunting
            intake := u.intake ++ [f]
            holdOff := u.holdOff || decide (u.intake.length + 1 = 6)
            flow := if u.intake.length + 1 = 6 ∧ u.holdOff = false then
                (if u.flow = some Flow.rsum then none else some Flow.hoff) else u.flow }.startNext))
      ∧ (good → type = 0x01 → u.service ≠ none → 8 ≤ u.intake.length → exec (.frameComplete p c2) s = .next
        (s.setPort p
          { u with
            receiver := .hunting
            overruns := min 65535 (u.overruns + 1)
            overrunLatch := true }.startNext))

/-- A request frame laid out as 12.1 states and received byte by byte on any port, by steps of the
machine, arrives whole: after its last byte the part is as it was but that the very frame has joined the
port's intake queue or service slot, and no other port and no record has changed. That RECEIVED_BYTE completes the frame
is the model's inference (log 16). -/
def Obligations.RequestFrameReceivedWhole : Prop :=
  ∀ (s : State) (p : Port) (code tag : Byte) (src : Id) (payload : List Byte), s.Quiet →
    payload.length ≤ 249 → (s.port p).receiver = .hunting →
    Host.Core.run Sys2Proof.core (12 + payload.length)
      { s with pending := (frameBytes 0x01 code tag src payload).map (.receivedByte p) ++ s.pending }
    = .next (s.setPort p (((s.port p).join ⟨code, tag, src, payload⟩).take.startNext))

/-! ## Ticks, deadlines and gates (chapters 2, 3, 6 and 10) -/

/-- A seconds tick counts the seconds, lowers every deadline, advances ages and soaks, and brings about
exactly the events that the rules give it: the minute tick at the wrap of 59, each entry that goes STALE or
away, each expiry and each soak end (R27, R28, R99, R170, R173). Nothing else changes. The model's own choices in this:
a deadline that has run out stands at 0 until its expiry, which the tick lists, is taken (logs 18 and 28), and every
deadline, soak and age takes the tick before any other event of it acts (log 32). -/
def Obligations.SecondsTickCountsAndBringsAboutEvents : Prop :=
  ∀ s : State, s.Quiet → ∃ t, exec .secondsTick s = .next t
    ∧ t = { s with cells := t.cells, equipment := t.equipment, clock := t.clock, due := t.due }
    ∧ t.clock = { s.clock with seconds := if s.clock.seconds = 59 then 0 else s.clock.seconds + 1 }
    ∧ (∀ i, t.entry i = (s.entry i).map fun e => { e with age := min 65535 (e.age + 1) })
    ∧ (∀ c, t.cell c =
        { s.cell c with
          negotiation := (s.cell c).negotiation.map fun n => { n with deadline := n.deadline - 1 }
          preparation := (s.cell c).preparation.map fun q =>
            { q with
              loadDeadline := q.loadDeadline.map fun d => d - 1
              settleDeadline := q.settleDeadline.map fun d => d - 1 }
          run := (s.cell c).run.map fun r => { r with closeDeadline := r.closeDeadline.map fun d => d - 1 }
          thermal := if (s.cell c).thermal.reached = true then
              { (s.cell c).thermal with soak := min 3600 ((s.cell c).thermal.soak + 1) }
            else (s.cell c).thermal })
    ∧ (Due.minute ∈ t.due ↔ s.clock.seconds = 59) ∧ Due.floorReset ∉ t.due
    ∧ (∀ i, (Due.stale i ∈ t.due ↔ ∃ e, t.entry i = some e ∧ s.tables.parameters.aging ≠ 0
          ∧ e.state = .present ∧ s.tables.parameters.aging ≤ e.age)
        ∧ (Due.removal i ∈ t.due ↔ ∃ e, t.entry i = some e ∧ s.tables.parameters.aging ≠ 0
          ∧ e.membership = none ∧ 2 * s.tables.parameters.aging ≤ e.age))
    ∧ ∀ c, (Due.negotiation c ∈ t.due ↔ ((t.cell c).state = .offer ∨ (t.cell c).state = .confirm)
          ∧ ∃ n, (t.cell c).negotiation = some n ∧ n.deadline = 0)
        ∧ (Due.load c ∈ t.due ↔ (t.cell c).state = .preparing
          ∧ ∃ q, (t.cell c).preparation = some q ∧ q.loadDeadline = some 0)
        ∧ (Due.settle c ∈ t.due ↔ (t.cell c).state = .preparing
          ∧ ∃ q, (t.cell c).preparation = some q ∧ q.settleDeadline = some 0)
        ∧ (Due.close c ∈ t.due ↔ (t.cell c).state = .closing
          ∧ ∃ r, (t.cell c).run = some r ∧ r.closeDeadline = some 0)
        ∧ (Due.soak c ∈ t.due ↔ (t.cell c).state = .preparing
          ∧ ∃ q l, (t.cell c).preparation = some q ∧ q.thermal = .soaking ∧ t.boundLot c = some l
            ∧ (t.product l).soakTime ≤ (t.cell c).thermal.soak)

/-- A minute tick advances the minute stamp, which wraps, and the period minute, which returns to 0 after P;
every effective priority is computed again; the gates are evaluated on the new M unless a start-up load runs;
and the mark makes NMRK when it equals the new M (R77, R171, R172, R178, R179). That NMRK comes after the deliveries of
the gates is the model's choice (log 5). -/
def Obligations.MinuteTickAdvancesClock : Prop :=
  ∀ s : State, s.due = [.minute] →
    let m := if s.clock.minute = s.tables.parameters.period then 0 else s.clock.minute + 1
    let stamp := s.clock.stamp + 1
    let advanced : State :=
      { s with
        due := []
        clock := { s.clock with stamp := stamp, minute := m }
        queue := s.queue.map fun w => match s.lot w.lot with
          | some l => { w with priority :=
              effectivePriority s.tables.parameters.agingStep l.basePriority (stamp - l.joinStamp).toNat }
          | none => w }
    let evaluated := if s.configState = .loading then advanced else advanced.evaluateGates none
    exec .minuteTick s = .next
      (if s.tables.parameters.mark = some m then evaluated.notify 0 (.nmrk stamp m) else evaluated)

/-- The state of a gate follows its enabled windows and M (R175, R176), and an evaluation records both states
and delivers each change by its kind: an opening of the DISPATCH gate serves the IDLE cells in ascending
number, an opening of the RELEASE gate offers every record and makes the attention test, a closing of it
reverts every record, and no other change is delivered (R84, R163, R177). That the dispatcher's delivery comes before
the release unit's is the model's choice (log 5). -/
def Obligations.GatesFollowWindowsAndDeliverChanges : Prop :=
  (∀ (ws : List Window) (kind : WindowKind) (m : Nat),
    let mine : List Window := ws.filter fun w => decide (w.kind = kind ∧ w.start ≠ w.stop)
    let isOpen : Window → Prop := fun w =>
      if w.start < w.stop then w.start ≤ m ∧ m < w.stop else w.start ≤ m ∨ m < w.stop
    (mine = [] → gateAt ws kind m = .ungated)
    ∧ ((∃ w ∈ mine, isOpen w) → gateAt ws kind m = .opened)
    ∧ (mine ≠ [] → (∀ w ∈ mine, ¬isOpen w) → gateAt ws kind m = .closed))
  ∧ ∀ (s : State) (src : Option Port),
    let d := gateAt s.tables.windows.toList .dispatch s.clock.minute
    let r := gateAt s.tables.windows.toList .release s.clock.minute
    let recorded : State := { s with clock := { s.clock with dispatchGate := d, releaseGate := r } }
    let idle := (List.finRange 16).filter fun c => decide ((s.cell c).state = .idle)
    let delivered : State := if s.clock.dispatchGate = .closed ∧ d ≠ .closed then
        idle.foldl (fun u c => u.serve src c) recorded else recorded
    let offering (o : OfferState) : State :=
      { delivered with shipments := delivered.shipments.map fun x : Shipment => { x with offer := o } }
    (s.clock.releaseGate = .closed → r ≠ .closed → s.evaluateGates src = (offering .offered).attentionTest)
    ∧ (s.clock.releaseGate ≠ .closed → r = .closed → s.evaluateGates src = offering .queued)
    ∧ ((s.clock.releaseGate = .closed ↔ r = .closed) → s.evaluateGates src = delivered)

/-- A request other than EANN from a known sender leaves its sender's entry PRESENT, with age 0, on the arrival port,
with its id, kind and membership as they were, GOOD, CHECK or FIELD alike (R24); R24's case of a request answered BUSY
by its owner does not arise on an equipment port, as the model infers (log 25). An entry whose age has reached A becomes
STALE and disturbs its cell; a STALE entry without a membership whose age has reached 2A is removed, and its position is
free. Nothing else changes (R27, R28, R29). -/
def Obligations.EntryRefreshedElseGoesStaleThenAway : Prop :=
  (∀ (i : Instr) (s : State) (p : Port) (r : Req) (mine : List Byte → Bool) (id : Id) (payload : List Byte)
    (j : Position) (e : Entry),
    requestOf i = some (p, r, mine) → mine payload = true → r ≠ .eann → s.Sends p r id payload j e →
    ∃ t e', exec i s = .next t ∧ t.entry j = some e' ∧ e'.id = id ∧ e'.state = .present ∧ e'.age = 0
      ∧ e'.port = p ∧ e'.membership = e.membership ∧ e'.ability.kind = e.ability.kind)
  ∧ (∀ (s : State) (i : Position) (e : Entry), s.due = [.stale i] → s.entry i = some e → e.state = .present →
    s.tables.parameters.aging ≠ 0 → s.tables.parameters.aging ≤ e.age →
    let aged : State := { s with due := [], equipment := s.equipment.set i (some { e with state := .stale }) }
    exec (.entryStale i) s = .next (match e.membership with
      | some c => aged.disturb none c .stale
      | none => aged))
  ∧ ∀ (s : State) (i : Position) (e : Entry), s.due = [.removal i] → s.entry i = some e → e.state = .stale →
    s.tables.parameters.aging ≠ 0 → 2 * s.tables.parameters.aging ≤ e.age →
    exec (.entryRemoval i) s = .next (match e.membership with
      | some _ => { s with due := [] }
      | none => { s with due := [], equipment := s.equipment.set i none })

/-- A member disturbance of a cell in use abandons its run and discards its preparation, moves it to LOST, or
into a new negotiation at a re-announce, and then places a CELL hold on the bound lot, which stays bound (R48,
R49, R50); a VACANT cell is not disturbed. -/
def Obligations.DisturbanceEndsWorkAndHoldsLot : Prop :=
  ∀ (s : State) (src : Option Port) (c : CellNo),
    ((s.cell c).state = .vacant → ∀ d, s.disturb src c d = s)
    ∧ ((s.cell c).state ≠ .vacant →
      let emptied : Cell := { s.cell c with run := none, preparation := none }
      let lost := (s.setCell c { emptied with state := .lost, negotiation := none, fault := none }).ncel c
      let offered := (s.setCell c emptied).enterOffer c
      (s.disturb src c .stale = match (s.cell c).bound with
        | some id => lost.placeHold src id .cell c.val 1
        | none => lost)
      ∧ ((s.cell c).state ≠ .lost ∨ s.membersPresent c = true →
        s.disturb src c .reannounce = match (s.cell c).bound with
          | some id => offered.placeHold src id .cell c.val 2
          | none => offered)
      ∧ ((s.cell c).state = .lost → s.membersPresent c = false →
        s.disturb src c .reannounce = match (s.cell c).bound with
          | some id => lost.placeHold src id .cell c.val 2
          | none => lost))

/-- Entering OFFER makes a new negotiation record with the negotiation timeout, removes the fault reason and
queries each member whose report is not marked received; the rest of the cell is kept (R38). A refresh reports a return
only of a STALE entry with a membership, to that cell (R24, R29). Both members are PRESENT when the entries of the
handler and of the tester that the cell names are. A member's return
forms a LOST cell again when both members are PRESENT, asks again the handler or the tester that still owes its report
or acceptance, and does nothing else (R51). That the handler is queried before the tester is the model's choice
(log 5). -/
def Obligations.OfferNegotiatesAfresh : Prop :=
  (∀ (s : State) (c : CellNo) (h t : Bool),
    let offered : Cell :=
      { s.cell c with
        state := .offer
        fault := none
        negotiation := some ⟨h, t, false, false, none, s.tables.parameters.negotiation⟩ }
    let shown := (s.setCell c offered).notify 0 (.ncel c .offer offered.mode none offered.bound)
    let asked := if h then shown else shown.notifyMember offered.handler fun id => .nabq id c
    s.enterOffer c h t = if t then asked else asked.notifyMember offered.tester fun id => .nabq id c)
  ∧ (∀ (s : State) (e : Entry) (c : CellNo) (id : Id),
    (e.returnsTo = some c ↔ e.state = .stale ∧ e.membership = some c)
    ∧ s.reportReturn (some c) id = s.memberReturn c id ∧ s.reportReturn none id = s
    ∧ (s.membersPresent c = true ↔ ∃ h t x y, (s.cell c).handler = some h ∧ (s.cell c).tester = some t
        ∧ s.equip h = some x ∧ s.equip t = some y ∧ x.state = .present ∧ y.state = .present))
  ∧ ∀ (s : State) (c : CellNo) (id : Id),
    ((s.cell c).state = .lost → s.membersPresent c = true → s.memberReturn c id = s.enterOffer c)
    ∧ ((s.cell c).state = .lost → s.membersPresent c = false → s.memberReturn c id = s)
    ∧ (∀ n, (s.cell c).state = .offer → (s.cell c).negotiation = some n → (s.cell c).handler = some id →
        (s.cell c).tester ≠ some id →
        s.memberReturn c id = if n.handlerReported then s else s.notifyEquip id (.nabq id c))
    ∧ (∀ n, (s.cell c).state = .offer → (s.cell c).negotiation = some n → (s.cell c).tester = some id →
        (s.cell c).handler ≠ some id →
        s.memberReturn c id = if n.testerReported then s else s.notifyEquip id (.nabq id c))
    ∧ (∀ n cap, (s.cell c).state = .confirm → (s.cell c).negotiation = some n → n.proposed = some cap →
        (s.cell c).handler = some id → (s.cell c).tester ≠ some id →
        s.memberReturn c id = if n.handlerAccepted then s else s.notifyEquip id (.ncnf id c cap))
    ∧ (∀ n cap, (s.cell c).state = .confirm → (s.cell c).negotiation = some n → n.proposed = some cap →
        (s.cell c).tester = some id → (s.cell c).handler ≠ some id →
        s.memberReturn c id = if n.testerAccepted then s else s.notifyEquip id (.ncnf id c cap))
    ∧ ((s.cell c).state ≠ .lost → (s.cell c).state ≠ .offer → (s.cell c).state ≠ .confirm →
        s.memberReturn c id = s)

/-- The end of a soak makes the thermal part DONE; a preparation that still awaits its program goes on, and a
complete one is discarded: the cell is PAUSED with a held lot, and opens a run for an unheld lot with work
left (R94, R99). For an unheld lot with no work left pass completion runs: a run opens for the next pass, or the lot
leaves TESTED, is checked, its sample is decided, and the cell is IDLE and served (R102, R109, R110). That pass
completion runs before an empty active set is looked at is the model's inference (log 13).
The four deadline expiries: a negotiation ends in FAULT with reason TIMEOUT (R43); a program load fails,
the cell keeps the failed program id and its lot is unbound (R97); a settle timeout clears the thermal record,
unbinds the lot and forces MAINTENANCE (R100); an owed result closes the run with a SHORT RUN hold (R107). -/
def Obligations.SoakEndAndDeadlineExpiriesAct : Prop :=
  (∀ (s : State) (c : CellNo) (q : Preparation) (l : Lot), s.due = [.soak c] → (s.cell c).state = .preparing →
    (s.cell c).preparation = some q → q.thermal = .soaking → s.boundLot c = some l →
    (s.product l).soakTime ≤ (s.cell c).thermal.soak →
    let soaked : State := { s with due := [] }.setCell c
      { s.cell c with preparation := some { q with thermal := .done } }
    let complete : State := { s with due := [] }.setCell c { s.cell c with preparation := none }
    let max := (s.product l).maxRetests
    let passed := complete.onLot l.id fun l => l.completePass max
    (q.program = .pending → exec (.soakEnd c) s = .next soaked)
    ∧ (q.program ≠ .pending → l.unheld = false → exec (.soakEnd c) s =
        .next (complete.moveCell c fun x => { x with state := .paused }))
    ∧ (q.program ≠ .pending → l.unheld = true → l.hasWork = true → exec (.soakEnd c) s =
        .next (complete.openRun none c l))
    ∧ (q.program ≠ .pending → l.unheld = true → l.hasWork = false → l.retests max = true →
        exec (.soakEnd c) s = .next (passed.openRun none c (l.completePass max)))
    ∧ (q.program ≠ .pending → l.unheld = true → l.hasWork = false → l.retests max = false →
        exec (.soakEnd c) s = .next
          (((((((passed.onLot l.id fun l => { l with cell := none, state := .tested }).nlot l.id .tested).onCell c
            fun x => { x with bound := none }).checkRatios none l.id).decideSample l.id).moveCell c
              fun x => { x with state := .idle }).serve none c)))
  ∧ (∀ (s : State) (c : CellNo) (n : Negotiation), s.due = [.negotiation c] →
    (s.cell c).state = .offer ∨ (s.cell c).state = .confirm → (s.cell c).negotiation = some n →
    n.deadline = 0 →
    exec (.negotiationDeadlineExpiry c) s = .next ({ s with due := [] }.moveCell c fun x =>
      { x with state := .fault, fault := some .timeout, negotiation := none }))
  ∧ (∀ (s : State) (c : CellNo) (q : Preparation) (l : Lot), s.due = [.load c] →
    (s.cell c).state = .preparing → (s.cell c).preparation = some q → q.loadDeadline = some 0 →
    s.boundLot c = some l →
    exec (.loadDeadlineExpiry c) s = .next (({ s with due := [] }.setCell c
      { s.cell c with failed := some (s.product l).program, preparation := none }).unbind none c l.id
        fun x => { x with state := .idle }))
  ∧ (∀ (s : State) (c : CellNo) (q : Preparation) (l : Lot), s.due = [.settle c] →
    (s.cell c).state = .preparing → (s.cell c).preparation = some q → q.settleDeadline = some 0 →
    s.boundLot c = some l →
    exec (.settleDeadlineExpiry c) s = .next (({ s with due := [] }.setCell c
      { s.cell c with thermal := ⟨none, false, 0⟩, preparation := none }).unbind none c l.id
        fun x => { x with state := .idle, mode := .maintenance }))
  ∧ ∀ (s : State) (c : CellNo) (r : Run) (count : Nat) (reason : EndReason), s.due = [.close c] →
    (s.cell c).state = .closing → (s.cell c).run = some r → r.closeDeadline = some 0 →
    r.handlerCount = some count → r.endReason = some reason →
    exec (.closeDeadlineExpiry c) s =
      .next ({ s with due := [] }.closeRun none c (some (2, count - r.binned)) reason)

/-! ## Dispatch and runs (chapters 5 and 6) -/

/-- Queue order is a total order of the lots in the queue: higher effective priority first, then lower entry
sequence, then the earlier to join (R75). The effective priority is the base priority raised by one for each
aging step waited, up to 7; an aging step of 0 leaves it as it is (R76). -/
def Obligations.QueueOrderAndEffectivePriority : Prop :=
  (∀ s : State, s.queueOrder.Perm s.queue
    ∧ s.queueOrder.Pairwise (fun a b => b.priority < a.priority
        ∨ (a.priority = b.priority ∧ s.sequenceOf a ≤ s.sequenceOf b))
    ∧ ∀ k n, s.queueOrder.filter (fun w => decide (w.priority = k ∧ s.sequenceOf w = n))
        = s.queue.filter (fun w => decide (w.priority = k ∧ s.sequenceOf w = n)))
  ∧ ∀ (s : State) (w : Waiting) (l : Lot), s.lot w.lot = some l →
    let a := s.tables.parameters.agingStep
    let waited := (s.clock.stamp - l.joinStamp).toNat
    (s.freshPriority w).lot = w.lot
    ∧ (a = 0 → (s.freshPriority w).priority = l.basePriority)
    ∧ (1 ≤ a → 7 - l.basePriority ≤ waited / a → (s.freshPriority w).priority = 7)
    ∧ (1 ≤ a → waited / a < 7 - l.basePriority →
        (s.freshPriority w).priority = l.basePriority + waited / a)

/-- A cell that is served takes a bindable lot (R80, R81) of the highest effective priority among them, one
whose program its tester holds if there is such a lot of that priority, and of those the one with the lowest
entry sequence, and binds it; with no bindable lot, or when it is not IDLE, it takes none (R82).
The lot-join offer (R83): with no IDLE cell to which the lot is bindable it changes nothing; otherwise the
cell is the lowest one whose tester holds the lot's program, else the lowest; the lot is bound to it when no lot
ahead of it in queue order is bindable there, and else the cell is served and the offer is made again. -/
def Obligations.ServiceAndOfferBindByQueueOrder : Prop :=
  (∀ (s : State) (src : Option Port) (c : CellNo),
    let x := s.cell c
    let bindable : Waiting → Prop := fun w => ∃ l cap, s.lot w.lot = some l ∧ x.common = some cap
      ∧ x.state = .idle
      ∧ ((x.mode = .production ∧ l.cls = .production) ∨ (x.mode = .engineering ∧ l.cls = .engineering))
      ∧ cap.families.getLsbD (s.product l).family.val = true
      ∧ cap.bandMin ≤ (s.product l).setPoint ∧ (s.product l).setPoint ≤ cap.bandMax
      ∧ ((s.product l).kit = cap.kit ∨ (s.product l).kit = 0)
      ∧ (s.product l).options &&& cap.options = (s.product l).options
      ∧ x.failed ≠ some (s.product l).program ∧ x.active ≠ 0
      ∧ (s.clock.dispatchGate ≠ .closed ∨ l.basePriority = 7)
    let matching : Waiting → Prop := fun w => ∃ l program, s.lot w.lot = some l
      ∧ s.loadedProgram c = some program ∧ program ≠ 0 ∧ program = (s.product l).program
    (∀ w, (s.bindable c w = true ↔ bindable w) ∧ (s.holdsProgram c w = true ↔ matching w))
    ∧ (∀ id, s.choice c = some id → ∃ w ∈ s.queue, w.lot = id ∧ bindable w
      ∧ (∀ v ∈ s.queue, bindable v → v.priority ≤ w.priority)
      ∧ (∀ v ∈ s.queue, bindable v → v.priority = w.priority → matching v → matching w)
      ∧ (∀ v ∈ s.queue, bindable v → v.priority = w.priority → (matching v ↔ matching w) →
          s.sequenceOf w ≤ s.sequenceOf v))
    ∧ (s.choice c = none ↔ ∀ w ∈ s.queue, ¬bindable w)
    ∧ (s.choice c = none → s.serve src c = s)
    ∧ (∀ id, s.choice c = some id → s.serve src c = (s.bind src id c).serve src c)
    ∧ ((s.cell c).state ≠ .idle → s.serve src c = s))
  ∧ ∀ (s : State) (src : Option Port) (w : Waiting), (s.queue.find? fun v => decide (v.lot = w.lot)) = some w →
    let cells : CellNo → Prop := fun c => s.bindable c w = true
    let best : CellNo → Prop := fun c => cells c ∧
      ((s.holdsProgram c w = true ∧ ∀ d, cells d → s.holdsProgram d w = true → c.val ≤ d.val)
        ∨ ((∀ d, cells d → s.holdsProgram d w = false) ∧ ∀ d, cells d → c.val ≤ d.val))
    ((∀ c, ¬cells c) → s.offer src w.lot = s)
    ∧ ((∀ c, (s.cell c).state ≠ .idle) → s.offer src w.lot = s)
    ∧ ∀ c, best c →
      ((∀ v ∈ s.queueOrder.takeWhile fun v => decide (v.lot ≠ w.lot), s.bindable c v = false) →
        s.offer src w.lot = (s.bind src w.lot c).serve src c)
      ∧ ((∃ v ∈ s.queueOrder.takeWhile fun v => decide (v.lot ≠ w.lot), s.bindable c v = true) →
        s.offer src w.lot = (s.serve src c).offer src w.lot)

/-- A binding takes the lot out of the queue, makes it BOUND to the cell with an NLOT, and the cell names it
and prepares (R85, R91 to R93): the program part is NOT NEEDED when the tester holds the program and else
PENDING with NLDP, the load request and the load deadline; the thermal part follows the thermal record, with
NSTP, a new thermal record and the settle deadline where the set point differs; an NCEL shows the cell
PREPARING, and completion is tested (R94): a preparation that lacks its program or its temperature stands; a complete
one is discarded, and the cell is PAUSED with a held lot and goes on with an unheld one as at a soak's end, a run when
work is left, else pass completion (R102). That NLDP is made before NSTP, and that pass completion runs before an empty
active set is looked at, are the model's (logs 5 and 13).
An unbinding makes the lot WAITING with an NLOT, gives the cell the state of its event with an NCEL, lets
an unheld lot join the queue with a new queue-join stamp and its base priority, serves the cell, and offers
the lot if it is still in the queue; a held lot stays out (R86). -/
def Obligations.BindingPreparesCellAndUnbindingReturnsLot : Prop :=
  (∀ (s : State) (src : Option Port) (id : Id) (c : CellNo),
    s.bind src id c =
      (((({ s with
          queue := s.queue.filter fun w : Waiting => decide (w.lot ≠ id)
          lots := s.lots.map fun l : Lot => if l.id = id then { l with state := .bound, cell := some c } else l }
          : State).nlot id
            .bound).onCell c fun x => { x with bound := some id }).prepare src c))
  ∧ (∀ (s : State) (src : Option Port) (c : CellNo) (l : Lot), s.boundLot c = some l →
    let product := s.product l
    let p := s.tables.parameters
    let x := s.cell c
    let held := decide (s.loadedProgram c = some product.program)
    let asked := if held then s else
      (s.notifyMember x.tester fun id => .nldp id c product.program).setCell c
        { x with loadRequest := some product.program }
    let y := asked.cell c
    let program : ProgramPart := if held then .notNeeded else .pending
    let load := if held then none else some p.load
    let build (u : State) (z : Cell) (part : ThermalPart) (settle : Option Nat) : State :=
      ((u.setCell c { z with state := .preparing, preparation := some ⟨program, load, part, settle⟩ }).ncel
        c).testPreparation src c
    (x.thermal.setPoint = some product.setPoint → x.thermal.reached = true →
        product.soakTime ≤ x.thermal.soak → s.prepare src c = build asked y .done none)
    ∧ (x.thermal.setPoint = some product.setPoint → x.thermal.reached = true →
        x.thermal.soak < product.soakTime → s.prepare src c = build asked y .soaking none)
    ∧ (x.thermal.setPoint = some product.setPoint → x.thermal.reached = false →
        s.prepare src c = build asked y .settling (some p.settle))
    ∧ (x.thermal.setPoint ≠ some product.setPoint →
        s.prepare src c = build (asked.notifyMember x.handler fun id => .nstp id c product.setPoint)
          { y with thermal := ⟨some product.setPoint, false, 0⟩ } .settling (some p.settle)))
  ∧ (∀ (s : State) (src : Option Port) (c : CellNo) (q : Preparation) (l : Lot), (s.cell c).preparation = some q →
    s.boundLot c = some l →
    let complete := s.setCell c { s.cell c with preparation := none }
    let max := (s.product l).maxRetests
    let passed := complete.onLot l.id fun l => l.completePass max
    (q.program = .pending ∨ q.thermal ≠ .done → s.testPreparation src c = s)
    ∧ (q.program ≠ .pending → q.thermal = .done →
      (l.unheld = false → s.testPreparation src c = complete.moveCell c fun x => { x with state := .paused })
      ∧ (l.unheld = true → l.hasWork = true → s.testPreparation src c = complete.openRun src c l)
      ∧ (l.unheld = true → l.hasWork = false → l.retests max = true →
          s.testPreparation src c = passed.openRun src c (l.completePass max))
      ∧ (l.unheld = true → l.hasWork = false → l.retests max = false → s.testPreparation src c =
          ((((((passed.onLot l.id fun l => { l with cell := none, state := .tested }).nlot l.id .tested).onCell c
            fun x => { x with bound := none }).checkRatios src l.id).decideSample l.id).moveCell c
              fun x => { x with state := .idle }))))
  ∧ ∀ (s : State) (src : Option Port) (c : CellNo) (id : Id) (l : Lot) (f : Cell → Cell),
    s.lot id = some l → s.inQueue id = false →
    let out := ((s.onLot id fun l => { l with cell := none, state := .waiting }).nlot id .unbound).moveCell c
      fun x => f { x with bound := none }
    let joined : State := (out.onLot id fun l => { l with joinStamp := s.clock.stamp })
    let served := { joined with queue := s.queue ++ [(⟨id, l.basePriority⟩ : Waiting)] }.serve src c
    (l.unheld = false → s.unbind src c id f = out.serve src c)
    ∧ (l.unheld = true → s.unbind src c id f = if served.inQueue id then served.offer src id else served)

/-- A run opens on the cell's active sites with the lot's next run number, its pass and the units expected,
the cell is RUNNING and NSTR goes to both members, with the RETEST-class bins in a retest pass (R102); with no
active site a SITE hold is placed and the cell is PAUSED (R103). -/
def Obligations.RunOpensOnActiveSites : Prop :=
  ∀ (s : State) (src : Option Port) (c : CellNo) (l : Lot),
    let x := s.cell c
    let expected := if l.pass = 0 then l.started - l.tested - l.lost else l.poolNow.total
    let run : Run :=
      { number := l.runCount + 1, pass := l.pass, expected := expected, binned := 0, excess := 0,
        sites := x.active, counts := Vector.replicate 8 (⟨0, 0⟩ : SiteCount), stopFlag := false,
        handlerCount := none, endReason := none, closeDeadline := none }
    let plan : BinPlan := s.tables.plans[(s.tables.products[l.product]).plan]
    let bins := if l.pass = 0 then none
      else some ((List.finRange 16).filter fun b : Fin 16 => decide (plan[b].cls = BinClass.retest))
    (x.active ≠ 0 → s.openRun src c l =
      ((((s.onLot l.id fun l' => { l' with runCount := l.runCount + 1 }).setCell c
        { x with run := some run, state := .running }).ncel c).notifyMembers c fun id =>
          .nstr id c l.id (l.runCount + 1) l.pass expected x.active bins))
    ∧ (x.active = 0 → s.openRun src c l =
        (s.placeHold src l.id .site c.val 0).moveCell c fun y => { y with state := .paused })

/-- Work is left for a lot's pass while pass 0 has units not yet tested or declared lost, or a later pass has a unit in
its pool (R102). Pass completion merges the pools and either starts the next pass on a nonzero pool below the maximum
retests, or closes the pool into the final counts; the units it moves keep their sum (R109).
A run close discards the run and places its RECONCILE hold and, when the handler is EXHAUSTED with work
left, the shortfall's (R108). The lot then goes on by its state and holds (R110): with work left, or a retest
pass begun, a new run opens for an unheld lot and the cell is PAUSED with a held one; a lot whose pool closed
is TESTED, checked, its sample decided, and the cell is IDLE and served. -/
def Obligations.PassCompletionAndRunCloseDecideNext : Prop :=
  (∀ (l : Lot) (maxRetests : Nat),
    let merged : Bins := Vector.ofFn fun b : Fin 16 => l.poolNow[b] + l.poolNext[b]
    (l.hasWork = true ↔
      (l.pass = 0 ∧ l.tested + l.lost < l.started) ∨ (l.pass ≠ 0 ∧ ∃ b : Fin 16, l.poolNow[b] ≠ 0))
    ∧ ((∃ b : Fin 16, merged[b] ≠ 0) → l.pass < maxRetests →
      l.retests maxRetests = true
      ∧ l.completePass maxRetests = { l with poolNow := merged, poolNext := Bins.zero, pass := l.pass + 1 })
    ∧ ((∀ b : Fin 16, merged[b] = 0) ∨ maxRetests ≤ l.pass →
      l.retests maxRetests = false
      ∧ l.completePass maxRetests =
        { l with
          final := Vector.ofFn fun b : Fin 16 => l.final[b] + merged[b]
          poolNow := Bins.zero
          poolNext := Bins.zero })
    ∧ (l.completePass maxRetests).final.total + (l.completePass maxRetests).poolNow.total
        + (l.completePass maxRetests).poolNext.total
      = l.final.total + l.poolNow.total + l.poolNext.total)
  ∧ ∀ (s : State) (src : Option Port) (c : CellNo) (id : Id) (l l' : Lot) (h : CloseHold) (reason : EndReason),
    (s.cell c).bound = some id → s.lot id = some l →
    let place (u : State) (hold : CloseHold) : State := match hold with
      | some (a, detail) => u.placeHold src id .reconcile a detail
      | none => u
    let work := l.hasWork
    let short : CloseHold := if reason = .exhausted ∧ work = true then
        (if l.pass = 0 then some (3, l.started - l.tested - l.lost) else some (4, l.poolNow.total)) else none
    let closed := place (place (s.setCell c { s.cell c with run := none }) h) short
    let max := (s.product l).maxRetests
    let passed := closed.onLot id fun l => l.completePass max
    closed.lot id = some l' →
      (work = true → l'.unheld = true → s.closeRun src c h reason = (closed.openRun src c l').serve src c)
      ∧ (work = true → l'.unheld = false → s.closeRun src c h reason =
          closed.moveCell c fun x => { x with state := .paused })
      ∧ (work = false → l.retests max = true → l'.unheld = true → s.closeRun src c h reason =
          (passed.openRun src c (l'.completePass max)).serve src c)
      ∧ (work = false → l.retests max = true → l'.unheld = false → s.closeRun src c h reason =
          passed.moveCell c fun x => { x with state := .paused })
      ∧ (work = false → l.retests max = false → s.closeRun src c h reason =
          (((((((passed.onLot id fun l => { l with cell := none, state := .tested }).nlot id .tested).onCell c
            fun x => { x with bound := none }).checkRatios src id).decideSample id).moveCell c
              fun x => { x with state := .idle }).serve src c))

/-- LENT (R62 to R64, R186). While UNCONFIGURED it waits for a re-attempt of the store load. While CONFIGURED
the refusals come in order: an undefined product, an id in use, an inconsistent restore part, a full table. An
accepted lot takes the next entry sequence, joins the table with an NLOT, and then joins the queue and is
offered; a restored lot with no work left in its pass is completed first, and is checked and its sample decided
when that leaves it TESTED. The data are the sequence, the present pass and the present state. -/
def Obligations.LotEntryAddsRecord : Prop :=
  ∀ (s : State) (f : LentFields), f.InRange → s.Asks 0 .lent f.bytes →
    let q := s.tables.products[f.product]
    let plan : BinPlan := s.tables.plans[q.plan]
    let answers (u : State) (r : Reply) : Prop := exec (.lent 0) s = .next (u.answer 0 (some .lent) r)
    let fits : Restore → Prop := fun r => r.final.total + r.pool.total = r.tested
      ∧ r.tested + r.lost ≤ f.started ∧ (∀ b : Fin 16, plan[b].cls = .retest ∨ r.pool[b] = 0)
      ∧ r.pass ≤ q.maxRetests ∧ (r.pass ≠ 0 → r.tested + r.lost = f.started)
    let plain : Lot :=
      { id := f.lot, product := f.product, cls := f.cls, basePriority := f.basePriority,
        sequence := s.sequence, joinStamp := s.clock.stamp, state := .waiting, cell := none, pass := 0,
        runCount := 0, started := f.started, tested := 0, lost := 0, rejects := 0, final := Bins.zero,
        poolNow := Bins.zero, poolNext := Bins.zero, sampleSize := none, holdCount := 0, overflow := false,
        samplePending := false }
    let restored (r : Restore) : Lot :=
      { plain with
        pass := r.pass
        tested := r.tested
        lost := r.lost
        final := r.final
        poolNow := if r.pass = 0 then Bins.zero else r.pool
        poolNext := if r.pass = 0 then r.pool else Bins.zero }
    let entered (l : Lot) : State :=
      ({ s with
        lots := s.lots ++ [l]
        sequence := if s.sequence + 1 = 0 then 1 else s.sequence + 1 } : State).nlot f.lot .entered
    let joined (l : Lot) : State :=
      ({ entered l with queue := s.queue ++ [(⟨f.lot, f.basePriority⟩ : Waiting)] } : State).offer (some 0) f.lot
    let judged (l : Lot) : State := ((entered l).checkRatios (some 0) f.lot).decideSample f.lot
    let data (u : State) : List Byte := be32 s.sequence ++ be 1 (((u.lot f.lot).map fun l => l.pass).getD 0)
      ++ [lotStateByte ((u.lot f.lot).map fun l => l.state)]
    (s.configState = .unconfigured → ∃ t, exec (.lent 0) s = .next t
      ∧ t = { s with ports := t.ports, storeJob := some .reattempt } ∧ (∀ p, p ≠ 0 → t.port p = s.port p)
      ∧ (t.port 0).sense = (s.port 0).sense
      ∧ (t.port 0).service = (s.port 0).service.map fun v => { v with progress := .waiting })
    ∧ (s.configState = .configured →
      (q.defined = false → answers s (.check .field 12))
      ∧ (q.defined = true → s.lot f.lot ≠ none → answers s (.check .duplicateLot f.lot))
      ∧ (q.defined = true → s.lot f.lot = none →
        (∀ r, f.restore = some r → ¬fits r → answers s (.check .inconsistent f.lot))
        ∧ ((∀ r, f.restore = some r → fits r) → 256 ≤ s.lots.length → answers s (.check .lotTableFull 0))
        ∧ (s.lots.length < 256 →
          (f.restore = none → answers (joined plain) (.good (data (joined plain))))
          ∧ ∀ r, f.restore = some r → fits r →
            let left : Prop := (r.pass = 0 ∧ r.tested + r.lost < f.started)
              ∨ (r.pass ≠ 0 ∧ ∃ b : Fin 16, r.pool[b] ≠ 0)
            let again : Prop := r.pass < q.maxRetests ∧ ∃ b : Fin 16, r.pool[b] ≠ 0
            let next : Lot :=
              { restored r with pass := r.pass + 1, poolNow := r.pool, poolNext := Bins.zero }
            let whole : Lot :=
              { restored r with
                state := .tested
                final := Vector.ofFn fun b : Fin 16 => r.final[b] + r.pool[b]
                poolNow := Bins.zero
                poolNext := Bins.zero }
            (left → answers (joined (restored r)) (.good (data (joined (restored r)))))
            ∧ (¬left → again → answers (joined next) (.good (data (joined next))))
            ∧ (¬left → ¬again → answers (judged whole) (.good (data (judged whole)))))))

/-- LREM takes the lot and its holds out of every list with an NLOT, unless it is BOUND or RELEASED (R65, R149;
the NLOT's hold count is log 8's choice). LPRI changes the base priority and, in the queue, the effective
priority, and offers the lot (R66). LSHT declares the units short of S lost and completes pass 0 (R67). That the
effective priority LPRI answers is the one after the offer, absent when the offer has bound the lot, and that LSHT
answers the pass and state after the sample decision, is the model's choice (log 33). -/
def Obligations.LotRemovalPriorityAndShortCount : Prop :=
  ∀ (s : State) (id : Id), id ≠ 0 →
    (s.Asks 0 .lrem (be32 id) →
      let answers (u : State) (r : Reply) : Prop := exec (.lrem 0) s = .next (u.answer 0 (some .lrem) r)
      (s.lot id = none → answers s (.check .unknownLot id))
      ∧ ∀ l, s.lot id = some l →
        (l.state = .bound ∨ l.state = .released → answers s (.check .wrongState id))
        ∧ (l.state ≠ .bound → l.state ≠ .released → answers
          (({ s with
            queue := s.queue.filter fun w : Waiting => decide (w.lot ≠ id)
            holds := s.holds.filter fun h : HoldRecord => decide (h.lot ≠ id)
            lots := s.lots.filter fun x : Lot => decide (x.id ≠ id) } : State).notify 0
              (.nlot id none 0 l.overflow .removed none)) (.good [])))
    ∧ (∀ k, k ≤ 7 → s.Asks 0 .lpri (be32 id ++ be 1 k) →
      let answers (u : State) (r : Reply) : Prop := exec (.lpri 0) s = .next (u.answer 0 (some .lpri) r)
      let based := s.onLot id fun l => { l with basePriority := k }
      (s.lot id = none → answers s (.check .unknownLot id))
      ∧ ∀ l, s.lot id = some l →
        (s.inQueue id = false → answers based (.good (be 1 k ++ [0x00, 0x00])))
        ∧ (s.inQueue id = true →
          let fresh := effectivePriority s.tables.parameters.agingStep k (s.clock.stamp - l.joinStamp).toNat
          let offered := ({ based with
            queue := s.queue.map fun w : Waiting => if w.lot = id then { w with priority := fresh } else w }
              : State).offer (some 0) id
          (offered.inQueue id = false → answers offered (.good (be 1 k ++ [0x00, 0x00])))
          ∧ (offered.inQueue id = true → ∃ w ∈ offered.queue, w.lot = id
            ∧ answers offered (.good (be 1 k ++ (0x01 :: be 1 w.priority))))))
    ∧ (s.Asks 0 .lsht (be32 id) →
      let answers (u : State) (r : Reply) : Prop := exec (.lsht 0) s = .next (u.answer 0 (some .lsht) r)
      (s.lot id = none → answers s (.check .unknownLot id))
      ∧ ∀ l, s.lot id = some l →
        (l.state = .bound ∨ l.tested + l.lost = l.started → answers s (.check .wrongState id))
        ∧ (l.state ≠ .bound → l.tested + l.lost ≠ l.started →
          let max := (s.product l).maxRetests
          let short : Lot → Lot := fun l => ({ l with lost := l.started - l.tested } : Lot).completePass max
          let again : Prop := l.pass < max ∧ ∃ b : Fin 16, l.poolNow[b] + l.poolNext[b] ≠ 0
          let ended := ({ (s.onLot id fun l => { short l with state := .tested }) with
            queue := s.queue.filter fun w : Waiting => decide (w.lot ≠ id) } : State).nlot id .tested
          let judged := (ended.checkRatios (some 0) id).decideSample id
          (again → answers (s.onLot id short)
            (.good (be 2 (l.started - l.tested) ++ be 1 (l.pass + 1) ++ [l.state.byte])))
          ∧ (¬again → answers judged (.good (be 2 (l.started - l.tested) ++ be 1 l.pass
            ++ [lotStateByte ((judged.lot id).map fun l => l.state)])))))

/-- The queries change nothing but the answer (R10, R32, R33, R54, R68, R69, R70): QLOT answers a lot's
summary, its counts, up to 8 of its hold records from a start index, or up to 30 lots from an entry sequence in
ascending order; QCEL a cell record; QEQP an entry, or every id in table order. Summary, hold records and shipment
records stand field by field as 12.6 lays them out, QCEL's fields in R54's order, an absent part as a presence byte 00h
and zero bytes (R195). QCEL's bytes and the byte order of sets and temperatures are the model's choices (logs 14
and 35), as is the order of two lots of one entry sequence, which is left open here (log 31). -/
def Obligations.QueriesReadRecords : Prop :=
  let opt (size : Nat) (v : Option (List Byte)) : List Byte := match v with
    | some bytes => 0x01 :: bytes
    | none => 0x00 :: List.replicate size 0x00
  let flagged (b : Bool) : Byte := if b then 0x01 else 0x00
  let degrees (t : Int) : List Byte := be 2 (BitVec.ofInt 16 t).toNat
  let shipped (r : Shipment) : List Byte :=
    be32 r.lot ++ be 1 r.product.val ++ be32 r.stamp ++ be 2 r.minute ++ be 2 r.started ++ be 2 r.lost
      ++ be 2 r.passed ++ be 2 r.rejects ++ be 2 r.shipped ++ be 2 r.yield ++ [r.offer.byte]
      ++ be 1 r.grades.length ++ r.grades.flatMap fun g => be 1 g.1.val ++ be 2 g.2
  (∀ (s : State) (p : Port) (id : Id), id ≠ 0 → s.lot id = none →
    (s.Asks p .qlot (0x01 :: be32 id) → exec (.qlotSummary p) s =
      .next (s.answer p (some .qlot) (.check .unknownLot id)))
    ∧ (s.Asks p .qlot (0x02 :: be32 id) → exec (.qlotCounts p) s =
      .next (s.answer p (some .qlot) (.check .unknownLot id)))
    ∧ ∀ start, start ≤ 63 → s.Asks p .qlot (0x03 :: (be32 id ++ be 1 start)) → exec (.qlotHolds p) s =
      .next (s.answer p (some .qlot) (.check .unknownLot id)))
  ∧ (∀ (s : State) (p : Port) (id : Id) (l : Lot), id ≠ 0 → s.lot id = some l →
    (s.Asks p .qlot (0x01 :: be32 id) → ∃ t, exec (.qlotSummary p) s = .next t ∧ OnlyAnswered s t p
      ∧ AnsweredGood s t p (be32 l.id ++ be 1 l.product.val ++ [l.cls.byte] ++ be 1 l.basePriority
        ++ opt 1 ((s.queue.find? fun w => decide (w.lot = id)).map fun w => be 1 w.priority)
        ++ be32 l.sequence ++ be32 l.joinStamp ++ [l.state.byte] ++ opt 1 (l.cell.map fun c => be 1 c.val)
        ++ be 1 l.pass ++ be 2 l.runCount.toNat ++ be 2 l.started ++ be 2 l.tested ++ be 2 l.lost ++ be 2 l.rejects
        ++ be 1 l.holdCount ++ [flagged l.overflow ||| (flagged l.samplePending <<< 1)]
        ++ opt 2 (l.sampleSize.map (be 2))
        ++ opt 0 ((s.shipments.find? fun r => decide (r.lot = id)).map shipped)))
    ∧ (s.Asks p .qlot (0x02 :: be32 id) → ∃ t, exec (.qlotCounts p) s = .next t ∧ OnlyAnswered s t p
      ∧ AnsweredGood s t p (be 2 l.started ++ be 2 l.tested ++ be 2 l.lost ++ be 2 l.rejects
        ++ l.final.toList.flatMap (be 2) ++ l.poolNow.toList.flatMap (be 2) ++ l.poolNext.toList.flatMap (be 2)))
    ∧ ∀ start, start ≤ 63 → s.Asks p .qlot (0x03 :: (be32 id ++ be 1 start)) →
      let page := ((s.holds.filter fun h => decide (h.lot = id)).drop start).take 8
      ∃ t, exec (.qlotHolds p) s = .next t ∧ OnlyAnswered s t p
        ∧ AnsweredGood s t p (be 1 l.holdCount ++ [if l.overflow then 0x01 else 0x00] ++ be 1 page.length
          ++ page.flatMap fun h => [h.kind.byte] ++ be 2 h.arg ++ be 2 h.detail
            ++ opt 1 (h.source.map fun q => be 1 q.val) ++ be32 h.stamp ++ be 2 h.note))
  ∧ (∀ (s : State) (p : Port) (start : Stamp), start ≠ 0 → s.Asks p .qlot (0x04 :: be32 start) →
    ∃ t, ∃ ordered : List Lot, exec (.qlotList p) s = .next t ∧ OnlyAnswered s t p
      ∧ ordered.Perm (s.lots.filter fun l => decide (start.toNat ≤ l.sequence.toNat))
      ∧ ordered.Pairwise (fun a b => a.sequence.toNat ≤ b.sequence.toNat)
      ∧ AnsweredGood s t p (be 2 s.lots.length ++ be 1 (ordered.take 30).length
        ++ (ordered.take 30).flatMap fun l => be32 l.id ++ be32 l.sequence))
  ∧ (∀ (s : State) (c : CellNo), s.Asks 0 .qcel (num1 c) → ∃ t, exec (.qcel 0) s = .next t
      ∧ OnlyAnswered s t 0 ∧
        let x := s.cell c
        AnsweredGood s t 0 ([x.state.byte, x.mode.byte] ++ opt 4 (x.handler.map be32) ++ opt 4 (x.tester.map be32)
          ++ opt 11 (x.common.map fun k => be 2 k.families.toNat ++ degrees k.bandMin ++ degrees k.bandMax
            ++ be 2 k.kit ++ be 2 k.options.toNat ++ [k.sites])
          ++ [x.active] ++ opt 4 (x.failed.map be32) ++ opt 4 (x.bound.map be32)
          ++ opt 1 (x.fault.map fun r => [r.byte])
          ++ opt 2 (x.thermal.setPoint.map degrees) ++ [flagged x.thermal.reached] ++ be 2 x.thermal.soak
          ++ opt 1 (x.negotiation.map fun n => be 1 n.deadline)
          ++ opt 8 (x.preparation.map fun q => [q.program.byte] ++ opt 2 (q.loadDeadline.map (be 2))
            ++ [q.thermal.byte] ++ opt 2 (q.settleDeadline.map (be 2)))
          ++ opt 10 (x.run.map fun r => be 2 r.number.toNat ++ be 1 r.pass ++ be 2 r.expected ++ be 2 r.binned
            ++ be 2 r.excess ++ [r.sites])))
  ∧ (∀ (s : State) (id : Id), id ≠ 0 → s.Asks 0 .qeqp (be32 id) → ∃ t, exec (.qeqp 0) s = .next t
      ∧ OnlyAnswered s t 0
      ∧ (∀ i e, s.find id = some (i, e) → AnsweredGood s t 0 (num1 i ++ be32 id ++ [e.ability.kind.byte]
          ++ num1 e.port ++ [e.state.byte] ++ be 2 e.age
          ++ (match e.membership with
            | some c => 0x01 :: num1 c
            | none => [0x00, 0x00])
          ++ match e.ability with
            | .handler a => be 2 a.families.toNat ++ degrees a.bandMin ++ degrees a.bandMax ++ [a.sites] ++ be 2 a.kit
            | .tester a => [a.sites] ++ be 2 a.options.toNat ++ be32 a.program))
      ∧ (s.find id = none → AnsweredCheck s t 0 (some .qeqp) .unknownEquipment id))
  ∧ ∀ s : State, s.Asks 0 .qeqp (be32 0) →
    let ids := (List.finRange 48).filterMap fun i => (s.entry i).map fun e => e.id
    ∃ t, exec (.qeqpList 0) s = .next t ∧ OnlyAnswered s t 0
      ∧ AnsweredGood s t 0 (be 1 ids.length ++ ids.flatMap be32)

/-! ## Holds (chapter 8) -/

/-- An automatic placement of a hold (R139, R140): a key in the list changes nothing; a full list sets the lot's
overflow flag once; otherwise the record is appended, the hold count rises and an NLOT shows it. A first hold
acts by the lot's state (R143, R144): out of the queue, a RUNNING cell STOPPING with its stop flag set and NSTO,
or a shipment withdrawn; nothing else.
HOLD places an OPERATOR hold from the floor host and a QA hold from the QA station (R141): a record already
there is answered PRESENT, a full list refuses HOLD TABLE FULL, and otherwise the record is appended with its
note code, and a first hold acts. -/
def Obligations.PlacementsAndHoldRequestHoldLot : Prop :=
  (∀ (s : State) (src : Option Port) (id : Id) (l : Lot), s.lot id = some l →
    (∀ (kind : HoldKind) (a d : Nat),
      let present : Prop := ∃ h ∈ s.holds, h.lot = id ∧ h.kind = kind ∧ h.arg = a
      let flagged := (s.onLot id fun l => { l with overflow := true }).nlot id .overflowSet
      let record : HoldRecord := ⟨id, kind, a, d, src, s.clock.stamp, 0⟩
      let appended := (({ s with holds := s.holds ++ [record] } : State).onLot id fun l =>
        { l with holdCount := l.holdCount + 1 }).nlot id .holdPlaced (some (kind, a))
      (present → s.placeHold src id kind a d = s)
      ∧ (¬present → 64 ≤ s.holds.length → l.overflow = true → s.placeHold src id kind a d = s)
      ∧ (¬present → 64 ≤ s.holds.length → l.overflow = false → s.placeHold src id kind a d =
          if l.holdCount = 0 then flagged.firstHold id else flagged)
      ∧ (¬present → s.holds.length < 64 → s.placeHold src id kind a d =
          if l.holdCount = 0 ∧ l.overflow = false then appended.firstHold id else appended))
    ∧ (l.state = .waiting → s.firstHold id =
        { s with queue := s.queue.filter fun w : Waiting => decide (w.lot ≠ id) })
    ∧ (∀ c r, l.state = .bound → l.cell = some c → (s.cell c).state = .running → (s.cell c).run = some r →
        (s.cell c).bound = some id → s.firstHold id =
          ((s.notifyMember (s.cell c).handler fun m => .nsto m c id r.number).setCell c
            { s.cell c with run := some { r with stopFlag := true }, state := .stopping }).ncel c)
    ∧ (∀ c, l.state = .bound → l.cell = some c → (s.cell c).state ≠ .running → s.firstHold id = s)
    ∧ (l.state = .released → s.firstHold id =
        (({ s with shipments := s.shipments.filter fun r : Shipment => decide (r.lot ≠ id) } : State).onLot id
          fun l => { l with state := .accepted }).nlot id .withdrawn)
    ∧ (l.state = .tested ∨ l.state = .sampling ∨ l.state = .accepted → s.firstHold id = s))
  ∧ ∀ (s : State) (p : Port) (id : Id) (note : Nat), id ≠ 0 → note ≤ 65535 →
    s.Asks p .hold (be32 id ++ be 2 note) →
    let answers (u : State) (r : Reply) : Prop := exec (.hold p) s = .next (u.answer p (some .hold) r)
    let kind : HoldKind := if p = 0 then .operator else .qa
    let a : Nat := if p = 0 then note else 0
    let present : Prop := ∃ h ∈ s.holds, h.lot = id ∧ h.kind = kind ∧ h.arg = a
    (s.lot id = none → answers s (.check .unknownLot id))
    ∧ ∀ l, s.lot id = some l →
      let ovf : Byte := if l.overflow then 0x01 else 0x00
      let record : HoldRecord := ⟨id, kind, a, 0, some p, s.clock.stamp, note⟩
      let appended := (({ s with holds := s.holds ++ [record] } : State).onLot id fun l =>
        { l with holdCount := l.holdCount + 1 }).nlot id .holdPlaced (some (kind, a))
      let done := if l.holdCount = 0 ∧ l.overflow = false then appended.firstHold id else appended
      (present → answers s (.good (0x02 :: (be 1 l.holdCount ++ [ovf] ++ [l.state.byte]))))
      ∧ (¬present → 64 ≤ s.holds.length → answers s (.check .holdTableFull 0))
      ∧ (¬present → s.holds.length < 64 → answers done (.good (0x01 :: (be 1 (l.holdCount + 1) ++ [ovf]
          ++ [lotStateByte ((done.lot id).map fun l => l.state)]))))

/-- HCLR takes out one hold at its place, for the port that owns its kind, with the disposition that a failed
sample needs (R145 to R147); HOVC clears the overflow flag (R142). A lot that becomes unheld goes on from where
it was stopped (R148, R158): a PAUSED cell's lot opens a run, or completes its pass first when it has no work left, and
when its pool then closes it leaves TESTED, is checked, its sample is decided, and the cell is IDLE and served (R102,
R109 to R111). That pass completion runs before an empty active set is looked at is the model's inference (log 13). -/
def Obligations.ClearedHoldLetsLotGoOn : Prop :=
  (∀ (s : State) (p : Port) (f : HclrFields), f.InRange → s.Asks p .hclr f.bytes →
    let answers (u : State) (r : Reply) : Prop := exec (.hclr p) s = .next (u.answer p (some .hclr) r)
    let owner : Port := if f.kind = .qa then 1 else 0
    let present : Prop := ∃ h ∈ s.holds, h.lot = f.lot ∧ h.kind = f.kind ∧ h.arg = f.arg
    (s.lot f.lot = none → answers s (.check .unknownLot f.lot))
    ∧ ∀ l, s.lot f.lot = some l →
      let failed : Prop := l.state = .sampling ∧ l.samplePending = false
      let misfit : Prop := f.kind = .qa ∧ ¬(failed ↔ f.disposition ≠ .none)
      let taken := (({ s with holds := s.holds.filter fun h : HoldRecord =>
          !(decide (h.lot = f.lot) && decide (h.kind = f.kind) && decide (h.arg = f.arg)) } : State).onLot f.lot
        fun l => { l with holdCount := l.holdCount - 1 }).nlot f.lot .holdCleared (some (f.kind, f.arg))
      let disposed := match f.disposition with
        | .none => taken
        | .accept => (taken.onLot f.lot fun l => { l with state := .accepted }).nlot f.lot .accepted
        | .resample =>
          (taken.onLot f.lot fun l => { l with state := .tested, rejects := 0 }).nlot f.lot .resample
      let done := if l.holdCount ≤ 1 ∧ l.overflow = false then disposed.becomeUnheld (some p) f.lot else disposed
      (p ≠ owner → answers s (.check .notOwner f.lot))
      ∧ (p = owner → ¬present → answers s (.check .noHold f.lot))
      ∧ (p = owner → present → misfit → answers s (.check .wrongState f.lot))
      ∧ (p = owner → present → ¬misfit → ∃ l', done.lot f.lot = some l' ∧ answers done (.good
          (be 1 l'.holdCount ++ [if l'.overflow then 0x01 else 0x00] ++ [l'.state.byte]))))
  ∧ (∀ (s : State) (id : Id), id ≠ 0 → s.Asks 0 .hovc (be32 id) →
    let answers (u : State) (r : Reply) : Prop := exec (.hovc 0) s = .next (u.answer 0 (some .hovc) r)
    (s.lot id = none → answers s (.check .unknownLot id))
    ∧ ∀ l, s.lot id = some l →
      let cleared := (s.onLot id fun l => { l with overflow := false }).nlot id .overflowCleared
      let done := if l.holdCount = 0 then cleared.becomeUnheld (some 0) id else cleared
      (l.overflow = false → answers s (.check .noHold id))
      ∧ (l.overflow = true → ∃ l', done.lot id = some l'
          ∧ answers done (.good (be 1 l'.holdCount ++ [l'.state.byte]))))
  ∧ ∀ (s : State) (src : Option Port) (id : Id) (l : Lot), s.lot id = some l →
    (l.state = .waiting → s.becomeUnheld src id =
      ({ (s.onLot id fun l => { l with joinStamp := s.clock.stamp }) with
        queue := s.queue ++ [(⟨id, l.basePriority⟩ : Waiting)] } : State).offer src id)
    ∧ (∀ c, l.state = .bound → l.cell = some c → (s.cell c).state = .paused → (s.cell c).bound = some id →
        (l.hasWork = true → s.becomeUnheld src id = (s.openRun src c l).serve src c)
        ∧ (l.hasWork = false → l.retests (s.product l).maxRetests = true → s.becomeUnheld src id =
            ((s.onLot id fun l => l.completePass (s.product l).maxRetests).openRun src c
              (l.completePass (s.product l).maxRetests)).serve src c)
        ∧ (l.hasWork = false → l.retests (s.product l).maxRetests = false → s.becomeUnheld src id =
          let max := (s.product l).maxRetests
          let tested := ((s.onLot id fun l => l.completePass max).onLot id fun l =>
            { l with cell := none, state := .tested }).nlot id .tested
          ((((tested.onCell c fun x => { x with bound := none }).checkRatios src id).decideSample id).moveCell c
            fun x => { x with state := .idle }).serve src c))
    ∧ (∀ c, l.state = .bound → l.cell = some c → (s.cell c).state ≠ .paused → s.becomeUnheld src id = s)
    ∧ (l.state = .tested → s.becomeUnheld src id = s.decideSample id)
    ∧ (l.state = .sampling → l.samplePending = false →
        s.becomeUnheld src id = s.placeHold src id .qa 0 l.rejects)
    ∧ (l.state = .sampling → l.samplePending = true → s.becomeUnheld src id = s)
    ∧ (l.state = .accepted ∨ l.state = .released → s.becomeUnheld src id = s)

/-! ## Cells (chapters 3 and 5) -/

/-- A cell in OFFER or CONFIRM answers the floor host's cell requests BUSY and nothing changes (R44). -/
def Obligations.NegotiatingCellAnswersBusy : Prop :=
  ∀ (s : State) (c : CellNo), s.configState = .configured →
    (s.cell c).state = .offer ∨ (s.cell c).state = .confirm →
    let busy (i : Instr) : Prop := ∃ t, exec i s = .next t ∧ OnlyAnswered s t 0 ∧ AnsweredBusy s t 0
    (∀ h t, h ≠ 0 → t ≠ 0 → s.Asks 0 .cdck (num1 c ++ be32 h ++ be32 t) → busy (.cdck 0))
    ∧ (s.Asks 0 .cund (num1 c) → busy (.cund 0))
    ∧ (s.Asks 0 .crdk (num1 c) → busy (.crdk 0))
    ∧ (∀ m : Mode, s.Asks 0 .cmod (num1 c ++ [m.byte]) → busy (.cmod 0))
    ∧ (∀ x : Fin 8, s.Asks 0 .csen (num1 c ++ num1 x) → busy (.csen 0))
    ∧ (s.Asks 0 .cunb (num1 c) → busy (.cunb 0))

/-- CDCK of a VACANT cell (R37): the handler's entry is checked, then the tester's, then both memberships;
then both entries become members, the cell names them, is in MAINTENANCE and enters OFFER, which queries both
(R38). A cell in use is refused CELL STATE. While UNCONFIGURED it waits as LENT does (R186). -/
def Obligations.DockingMakesMembersAndOffers : Prop :=
  ∀ (s : State) (c : CellNo) (h t : Id), h ≠ 0 → t ≠ 0 → s.Asks 0 .cdck (num1 c ++ be32 h ++ be32 t) →
    let answers (u : State) (r : Reply) : Prop := exec (.cdck 0) s = .next (u.answer 0 (some .cdck) r)
    let known : Id → EquipKind → Entry → Prop := fun id kind e =>
      s.equip id = some e ∧ e.state = .present ∧ e.ability.kind = kind
    let absent : Id → Prop := fun id => ∀ e, s.equip id = some e → e.state = .stale
    (s.configState = .unconfigured → ∃ u, exec (.cdck 0) s = .next u
      ∧ u = { s with ports := u.ports, storeJob := some .reattempt } ∧ (∀ p, p ≠ 0 → u.port p = s.port p)
      ∧ (u.port 0).service = (s.port 0).service.map fun v => { v with progress := .waiting })
    ∧ (s.configState = .configured →
      (∀ x, (s.cell c).state = x → x ≠ .vacant → x ≠ .offer → x ≠ .confirm →
        answers s (.check .cellState (BitVec.ofNat 32 c.val)))
      ∧ ((s.cell c).state = .vacant →
        (absent h → answers s (.check .unknownEquipment h))
        ∧ (∀ e, known h .tester e → answers s (.check .kindMismatch h))
        ∧ (∀ e, known h .handler e → absent t → answers s (.check .unknownEquipment t))
        ∧ (∀ e f, known h .handler e → known t .handler f → answers s (.check .kindMismatch t))
        ∧ ∀ e f i j, known h .handler e → known t .tester f → s.find h = some (i, e) → s.find t = some (j, f) →
          (e.membership ≠ none → answers s (.check .equipmentInUse h))
          ∧ (e.membership = none → f.membership ≠ none → answers s (.check .equipmentInUse t))
          ∧ (e.membership = none → f.membership = none → answers
            ((((s.setEntry i (some { e with membership := some c })).setEntry j
              (some { f with membership := some c })).setCell c
                { s.cell c with handler := some h, tester := some t, mode := .maintenance }).enterOffer c)
            (.good []))))

/-- CUND dissolves a cell that is IDLE, PAUSED, LOST or FAULT (R52): both memberships are cleared, NDIS goes to
both, and a bound lot is unbound as the record becomes VACANT. CUNB unbinds the lot of a PREPARING or PAUSED
cell, which becomes IDLE (R87). Any other settled state is refused CELL STATE. That the memberships are cleared and
NDIS is sent before the unbinding (log 22), and to the handler first (log 5), is the model's choice. -/
def Obligations.UndockingAndUnbindingByHost : Prop :=
  ∀ (s : State) (c : CellNo),
    let x := s.cell c
    (s.Asks 0 .cund (num1 c) →
      let answers (u : State) (r : Reply) : Prop := exec (.cund 0) s = .next (u.answer 0 (some .cund) r)
      (x.state ∈ [CellState.vacant, .preparing, .running, .stopping, .closing] →
        answers s (.check .cellState (BitVec.ofNat 32 c.val)))
      ∧ ∀ (h t : Id) (i j : Position) (e f : Entry), x.state ∈ [CellState.idle, .paused, .lost, .fault] →
        x.handler = some h → x.tester = some t → s.find h = some (i, e) → s.find t = some (j, f) → i ≠ j →
        let cleared := (s.setEntry i (some { e with membership := none })).setEntry j
          (some { f with membership := none })
        let told := (cleared.notifyEquip h (.ndis h c)).notifyEquip t (.ndis t c)
        (x.bound = none → answers ((told.setCell c Cell.vacant).ncel c) (.good []))
        ∧ ∀ id, x.bound = some id →
          answers (told.unbind (some 0) c id fun _ => Cell.vacant) (.good []))
    ∧ (s.Asks 0 .cunb (num1 c) →
      let answers (u : State) (r : Reply) : Prop := exec (.cunb 0) s = .next (u.answer 0 (some .cunb) r)
      (x.state ∈ [CellState.vacant, .idle, .running, .stopping, .closing, .lost, .fault] →
        answers s (.check .cellState (BitVec.ofNat 32 c.val)))
      ∧ ∀ id, x.state = .preparing ∨ x.state = .paused → x.bound = some id →
        let freed := (s.setCell c { x with preparation := none }).unbind (some 0) c id
          fun y => { y with state := .idle }
        answers freed (.good (be32 id ++ [lotStateByte ((freed.lot id).map fun l => l.state)])))

/-- CRDK offers a LOST or FAULT cell again (R53). CMOD changes the mode of an IDLE cell to or from MAINTENANCE
with an NCEL and serves it (R45). CSEN puts a common site back into the active set of an IDLE, PREPARING or
PAUSED cell, clears its failed program and serves it (R47). -/
def Obligations.RedockModeAndSiteRequests : Prop :=
  ∀ (s : State) (c : CellNo),
    let x := s.cell c
    (s.Asks 0 .crdk (num1 c) →
      let answers (u : State) (r : Reply) : Prop := exec (.crdk 0) s = .next (u.answer 0 (some .crdk) r)
      (x.state = .fault ∨ x.state = .lost → answers (s.enterOffer c) (.good []))
      ∧ (x.state ∈ [CellState.vacant, .idle, .preparing, .running, .stopping, .closing, .paused] →
        answers s (.check .cellState (BitVec.ofNat 32 c.val))))
    ∧ (∀ m : Mode, s.Asks 0 .cmod (num1 c ++ [m.byte]) →
      let answers (u : State) (r : Reply) : Prop := exec (.cmod 0) s = .next (u.answer 0 (some .cmod) r)
      let other : Prop := m ≠ x.mode ∧ (m = .maintenance ∨ x.mode = .maintenance)
      (x.state ∈ [CellState.vacant, .preparing, .running, .stopping, .closing, .paused, .lost, .fault] →
        answers s (.check .cellState (BitVec.ofNat 32 c.val)))
      ∧ (x.state = .idle → ¬other → answers s (.check .wrongMode (BitVec.ofNat 32 c.val)))
      ∧ (x.state = .idle → other →
        answers (((s.setCell c { x with mode := m }).ncel c).serve (some 0) c) (.good [])))
    ∧ ∀ site : Fin 8, s.Asks 0 .csen (num1 c ++ num1 site) →
      let answers (u : State) (r : Reply) : Prop := exec (.csen 0) s = .next (u.answer 0 (some .csen) r)
      let common : Prop := ∃ cap, x.common = some cap ∧ cap.sites.getLsbD site.val = true
      (x.state ∈ [CellState.vacant, .running, .stopping, .closing, .lost, .fault] →
        answers s (.check .cellState (BitVec.ofNat 32 c.val)))
      ∧ (x.state ∈ [CellState.idle, .preparing, .paused] → ¬common → answers s (.check .field 9))
      ∧ (x.state ∈ [CellState.idle, .preparing, .paused] → common → ∃ active : SiteSet,
        (∀ y : Fin 8, active.getLsbD y.val = true ↔ x.active.getLsbD y.val = true ∨ y = site)
        ∧ answers ((s.setCell c { x with active := active, failed := none }).serve (some 0) c) (.good []))

/-! ## Release (chapter 9) -/

/-- STAK takes the first OFFERED record and its lot out of every list with an NLOT and answers the record, or
answers NONE (R73, R164); SARM sets the attention arm and makes the attention test, which spends the arm for one
NATT once enough records are OFFERED (R166, R167); the test changes nothing while the arm is disarmed or the
offered count is below the threshold. Both answer the queue's length and the offered count. What the
NLOT of the freed lot shows, hold count 0 and the overflow flag its record held, is the model's choice (log 8). -/
def Obligations.ShipmentTakenAndAttentionArmed : Prop :=
  ∀ s : State,
    let offered (u : State) : Nat := (u.shipments.filter fun r => decide (r.offer = .offered)).length
    (s.armed = false ∨ offered s < s.tables.parameters.attention → s.attentionTest = s)
    ∧ (s.armed = true → s.tables.parameters.attention ≤ offered s → s.attentionTest =
        ({ s with armed := false } : State).notify 0 (.natt (offered s) s.shipments.length))
    ∧ (s.Asks 0 .stak [] →
      let answers (u : State) (r : Reply) : Prop := exec (.stak 0) s = .next (u.answer 0 (some .stak) r)
      (offered s = 0 → answers s (.good (0x00 :: (be 1 s.shipments.length ++ be 1 0))))
      ∧ ∀ r l, (s.shipments.find? fun r => decide (r.offer = .offered)) = some r → s.lot r.lot = some l →
        let freed := ({ s with
          shipments := s.shipments.filter fun x : Shipment => decide (x.lot ≠ r.lot)
          queue := s.queue.filter fun w : Waiting => decide (w.lot ≠ r.lot)
          holds := s.holds.filter fun h : HoldRecord => decide (h.lot ≠ r.lot)
          lots := s.lots.filter fun x : Lot => decide (x.id ≠ r.lot) } : State)
        answers (freed.notify 0 (.nlot r.lot none 0 l.overflow .taken none))
          (.good (0x01 :: (be32 r.lot ++ be 1 r.product.val ++ be32 r.stamp ++ be 2 r.minute ++ be 2 r.started
            ++ be 2 r.lost ++ be 2 r.passed ++ be 2 r.rejects ++ be 2 r.shipped ++ be 2 r.yield ++ [r.offer.byte]
            ++ be 1 r.grades.length ++ (r.grades.flatMap fun g => be 1 g.1.val ++ be 2 g.2)
            ++ be 1 freed.shipments.length ++ be 1 (offered freed)))))
    ∧ (s.Asks 0 .sarm [] →
      let answers (u : State) (r : Reply) : Prop := exec (.sarm 0) s = .next (u.answer 0 (some .sarm) r)
      let n := s.shipments.length
      (offered s < s.tables.parameters.attention →
        answers { s with armed := true } (.good (0x01 :: (be 1 (offered s) ++ be 1 n))))
      ∧ (s.tables.parameters.attention ≤ offered s →
        answers (({ s with armed := false } : State).notify 0 (.natt (offered s) n))
          (.good (0x00 :: (be 1 (offered s) ++ be 1 n)))))

/-- QRES records the rejects of a sampling lot and judges it: at most the product's accept number makes it
ACCEPTED with an NLOT, more places a QA hold (R156, R157). RLSE makes the shipment record of an accepted, unheld
lot at the end of the release queue, QUEUED while the RELEASE gate is CLOSED and else OFFERED, which tests
attention (R160 to R163). -/
def Obligations.SampleResultAndRelease : Prop :=
  (∀ (s : State) (id : Id) (m r : Nat), id ≠ 0 → 1 ≤ m → m ≤ 2000 → r ≤ m →
    s.Asks 1 .qres (be32 id ++ be 2 m ++ be 2 r) →
    let answers (u : State) (r : Reply) : Prop := exec (.qres 1) s = .next (u.answer 1 (some .qres) r)
    (s.lot id = none → answers s (.check .unknownLot id))
    ∧ ∀ l, s.lot id = some l →
      let open_ : Prop := l.state = .sampling ∧ l.samplePending = true
      let free : Prop := l.holdCount = 0 ∧ l.overflow = false
      let judged := s.onLot id fun l => { l with rejects := r, samplePending := false }
      let passed := (s.onLot id fun l =>
        { l with rejects := r, samplePending := false, state := .accepted }).nlot id .accepted
      let failed := judged.placeHold (some 1) id .qa 0 r
      (¬open_ → answers s (.check .wrongState id))
      ∧ (open_ → ¬free → answers s (.check .held id))
      ∧ (open_ → free → l.sampleSize ≠ some m → answers s (.check .sampleCount id))
      ∧ (open_ → free → l.sampleSize = some m → r ≤ (s.product l).acceptNumber →
        answers passed (.good (0x01 :: (be 2 r ++ [LotState.accepted.byte] ++ be 1 0))))
      ∧ (open_ → free → l.sampleSize = some m → (s.product l).acceptNumber < r →
        ∃ l', failed.lot id = some l' ∧ l'.state = .sampling ∧ l'.rejects = r ∧ l'.samplePending = false
          ∧ answers failed (.good (0x02 :: (be 2 r ++ [LotState.sampling.byte] ++ be 1 l'.holdCount)))))
  ∧ ∀ (s : State) (id : Id), id ≠ 0 → s.Asks 1 .rlse (be32 id) →
    let answers (u : State) (r : Reply) : Prop := exec (.rlse 1) s = .next (u.answer 1 (some .rlse) r)
    (s.lot id = none → answers s (.check .unknownLot id))
    ∧ ∀ l, s.lot id = some l →
      let free : Prop := l.holdCount = 0 ∧ l.overflow = false
      let plan : BinPlan := s.tables.plans[(s.product l).plan]
      let good : Nat := (((List.finRange 16).filter fun b : Fin 16 => decide (plan[b].cls = BinClass.pass)).map
        fun b : Fin 16 => l.final[b]).sum
      let record : Shipment :=
        { lot := id, product := l.product, stamp := s.clock.stamp, minute := s.clock.minute,
          started := l.started, lost := l.lost, passed := good, rejects := l.rejects,
          shipped := good - l.rejects, yield := 10000 * (good - l.rejects) / l.started,
          grades := ((List.finRange 16).filter fun b : Fin 16 =>
            decide (plan[b].cls = BinClass.pass) && decide (0 < l.final[b])).map fun b => (b, l.final[b]),
          offer := if s.clock.releaseGate = .closed then .queued else .offered }
      let released := (({ s with shipments := s.shipments ++ [record] } : State).onLot id fun l =>
        { l with state := .released }).nlot id .released
      let data : List Byte := [record.offer.byte] ++ be 1 (s.shipments.length + 1) ++ be 2 record.shipped
        ++ be 2 record.yield
      (l.state ≠ .accepted → answers s (.check .wrongState id))
      ∧ (l.state = .accepted → ¬free → answers s (.check .held id))
      ∧ (l.state = .accepted → free → 32 ≤ s.shipments.length → answers s (.check .queueFull 0))
      ∧ (l.state = .accepted → free → s.shipments.length < 32 →
        (s.clock.releaseGate = .closed → answers released (.good data))
        ∧ (s.clock.releaseGate ≠ .closed → answers released.attentionTest (.good data)))

/-! ## Clock and configuration (chapters 10 and 11) -/

/-- CLKS reads the clock, or loads M, sets the seconds count to 0 and evaluates the gates (R174). WPAR replaces
the parameters: a new aging step recomputes every effective priority, and a new period clamps M and evaluates the
gates (R189; the order is log 5's choice). WWIN replaces a window whose minutes lie within the period and
evaluates the gates (R190). That a period minute CLKS cannot load is refused at offset 9, the byte after its presence
byte, is the model's inference (log 9). -/
def Obligations.ClockParametersAndWindows : Prop :=
  (∀ s : State,
    let read (u : State) : List Byte := be 1 u.clock.seconds ++ be32 u.clock.stamp ++ be 2 u.clock.minute
      ++ be 2 u.tables.parameters.period ++ [u.clock.dispatchGate.byte, u.clock.releaseGate.byte]
      ++ match u.tables.parameters.mark with
        | some m => 0x01 :: be 2 m
        | none => [0x00, 0x00, 0x00]
    (s.Asks 0 .clks [0x00] → ∃ t, exec (.clks 0) s = .next t ∧ OnlyAnswered s t 0 ∧ AnsweredGood s t 0 (read s))
    ∧ ∀ m, m ≤ 65535 → s.Asks 0 .clks (0x01 :: be 2 m) →
      let loaded := ({ s with clock := { s.clock with minute := m, seconds := 0 } } : State).evaluateGates (some 0)
      (s.tables.parameters.period < m ∨ 10079 < m →
        exec (.clks 0) s = .next (s.answer 0 (some .clks) (.check .field 9)))
      ∧ (m ≤ s.tables.parameters.period → m ≤ 10079 →
        exec (.clks 0) s = .next (loaded.answer 0 (some .clks) (.good (read loaded)))))
  ∧ (∀ (s : State) (new : Parameters), new.InRange → s.Asks 0 .wpar new.bytes →
    let old := s.tables.parameters
    let stored : State := { s with tables := { s.tables with parameters := new } }
    let aged : State := if old.agingStep = new.agingStep then stored else
      { stored with queue := s.queue.map fun w => match s.lot w.lot with
        | some l => { w with priority :=
            effectivePriority new.agingStep l.basePriority (s.clock.stamp - l.joinStamp).toNat }
        | none => w }
    let clamped : State :=
      { aged with clock := { s.clock with
          minute := if new.period < s.clock.minute then 0 else s.clock.minute } }
    let done := if old.period = new.period then aged else clamped.evaluateGates (some 0)
    exec (.wpar 0) s = .next (done.answer 0 (some .wpar) (.good [s.configState.byte])))
  ∧ ∀ (s : State) (i : Fin 4) (w : Window), w.start ≤ 10079 → w.stop ≤ 10079 → s.Asks 0 .wwin (num1 i ++ w.bytes) →
    let p := s.tables.parameters.period
    let written : State := { s with tables := { s.tables with windows := s.tables.windows.set i w } }
    (p < w.start → exec (.wwin 0) s = .next (s.answer 0 (some .wwin) (.check .field 10)))
    ∧ (w.start ≤ p → p < w.stop → exec (.wwin 0) s = .next (s.answer 0 (some .wwin) (.check .field 12)))
    ∧ (w.start ≤ p → w.stop ≤ p → exec (.wwin 0) s =
      .next ((written.evaluateGates (some 0)).answer 0 (some .wwin) (.good [s.configState.byte])))

/-- WPRD and WBPL write a product or a plan that no lot uses, and while CONFIGURED keep every defined product's
plan with a PASS-class bin (R187, R188); CRDY makes the configuration CONFIGURED when every defined product has
such a plan and a sample range, and answers the number of defined products (R182, R191). -/
def Obligations.TablesWrittenAndDeclaredReady : Prop :=
  let passes : BinPlan → Prop := fun p => ∃ b : Fin 16, p[b].cls = .pass
  (∀ (s : State) (i : Fin 32) (q : Product), q.InRange → s.Asks 0 .wprd (num1 i ++ q.bytes) →
    let answers (u : State) (r : Reply) : Prop := exec (.wprd 0) s = .next (u.answer 0 (some .wprd) r)
    let used : Prop := ∃ l ∈ s.lots, l.product = i
    let bad : Prop := s.configState = .configured ∧ q.defined = true ∧ ¬passes (s.tables.plans[q.plan])
    (used → answers s (.check .inUse (BitVec.ofNat 32 i.val)))
    ∧ (¬used → bad → answers s (.check .field (BitVec.ofNat 32 i.val)))
    ∧ (¬used → ¬bad → answers
      { s with tables := { s.tables with products := s.tables.products.set i q } }
      (.good [s.configState.byte])))
  ∧ (∀ (s : State) (i : Fin 8) (plan : BinPlan), plan.InRange → s.Asks 0 .wbpl (num1 i ++ plan.bytes) →
    let answers (u : State) (r : Reply) : Prop := exec (.wbpl 0) s = .next (u.answer 0 (some .wbpl) r)
    let used : Prop := ∃ l ∈ s.lots, (s.tables.products[l.product]).plan = i
    let names : Fin 32 → Prop := fun k =>
      (s.tables.products[k]).defined = true ∧ (s.tables.products[k]).plan = i
    let bad : Prop := s.configState = .configured ∧ ¬passes plan ∧ ∃ k, names k
    (used → answers s (.check .inUse (BitVec.ofNat 32 i.val)))
    ∧ (¬used → bad → ∀ k, names k → (∀ j, names j → k.val ≤ j.val) →
      answers s (.check .field (BitVec.ofNat 32 k.val)))
    ∧ (¬used → ¬bad → answers
      { s with tables := { s.tables with plans := s.tables.plans.set i plan } } (.good [s.configState.byte])))
  ∧ ∀ s : State, s.Asks 0 .crdy [] →
    let fails : Fin 32 → Prop := fun i => (s.tables.products[i]).defined = true
      ∧ (¬passes (s.tables.plans[(s.tables.products[i]).plan])
        ∨ (s.tables.products[i]).sampleMax < (s.tables.products[i]).sampleMin)
    let n := ((List.finRange 32).filter fun i => (s.tables.products[i]).defined).length
    (∀ i, fails i → (∀ j, fails j → i.val ≤ j.val) →
      exec (.crdy 0) s = .next (s.answer 0 (some .crdy) (.check .field (BitVec.ofNat 32 i.val))))
    ∧ ((∀ i, ¬fails i) → exec (.crdy 0) s = .next
      (({ s with configState := .configured } : State).answer 0 (some .crdy) (.good ([0x02] ++ be 1 n))))

/-! ## Requests of the equipment (chapters 2, 3 and 6) -/

/-- EANN from a new id makes an entry at the lowest free position, unless the table or the port is full (R25);
from a known id it replaces the ability record, refreshes the entry and disturbs the cell of a member, or is
refused when the kind differs (R26, R29). -/
def Obligations.AnnouncementMakesOrRenewsEntry : Prop :=
  ∀ (s : State) (p : Port) (id : Id) (a : Ability), a.InRange → s.Speaks p .eann id a.announced →
    let answers (u : State) (r : Reply) : Prop := exec (.eann p) s = .next (u.answer p (some .eann) r)
    (s.find id = none → (∀ i, s.entry i ≠ none) ∨ 4 ≤ s.portCount p → answers s (.check .tableFull 0))
    ∧ (∀ i, s.find id = none → s.entry i = none → (∀ j : Position, j.val < i.val → s.entry j ≠ none) →
        s.portCount p < 4 →
        answers (s.setEntry i (some ⟨id, p, .present, 0, none, a⟩)) (.good (num1 i ++ [0x01])))
    ∧ ∀ i e, s.find id = some (i, e) → e.port = p ∨ s.portCount p < 4 →
      let renewed := s.setEntry i
        (some { e with age := 0, state := .present, port := p, ability := a })
      (e.ability.kind ≠ a.kind → answers s (.check .kindMismatch id))
      ∧ (e.ability.kind = a.kind → e.membership = none → answers renewed (.good (num1 i ++ [0x02])))
      ∧ ∀ c, e.ability.kind = a.kind → e.membership = some c →
        answers (renewed.disturb (some p) c .reannounce) (.good (num1 i ++ [0x02]))

/-- EABL from a member replaces its ability record; in OFFER its report is marked and the second report makes a
proposal (R39, R40), and in CONFIRM the cell is offered again with that report marked. ECNF accepts the proposed
capability, and the second acceptance forms the cell; an echo that differs is a FAULT MISMATCH (R41, R42, R43). That an
echo with a kit id of 0 or a temperature beyond R21's range counts as one that differs is the model's inference
(log 11). -/
def Obligations.NegotiationReportsAndAcceptances : Prop :=
  (∀ (s : State) (p : Port) (id : Id) (i : Position) (e : Entry) (c : CellNo) (a : Ability), a.InRange →
    s.Sends p .eabl id (num1 c ++ a.announced) i e →
    let u := s.refresh i e p
    let x := s.cell c
    let handler : Bool := decide (x.handler = some id)
    let answers (v : State) (r : Reply) : Prop :=
      exec (.eabl p) s = .next ((v.reportReturn e.returnsTo id).answer p (some .eabl) r)
    let member : Prop := x.handler = some id ∨ x.tester = some id
    let told := u.setEntry i (some { e with age := 0, state := .present, port := p, ability := a })
    (¬member → answers u (.check .unknownCell (BitVec.ofNat 32 c.val)))
    ∧ (member → e.ability.kind ≠ a.kind → answers u (.check .kindMismatch id))
    ∧ (member → e.ability.kind = a.kind →
      (x.state ≠ .offer → x.state ≠ .confirm → answers u (.check .cellState (BitVec.ofNat 32 c.val)))
      ∧ (∀ n, x.state = .offer → x.negotiation = some n →
        let marked : Negotiation :=
          if handler then { n with handlerReported := true } else { n with testerReported := true }
        let v := told.setCell c { x with negotiation := some marked }
        (marked.handlerReported = true ∧ marked.testerReported = true → answers (v.reported c) (.good []))
        ∧ (¬(marked.handlerReported = true ∧ marked.testerReported = true) → answers v (.good [])))
      ∧ (∀ n, x.state = .confirm → x.negotiation = some n →
        answers (told.enterOffer c handler !handler) (.good []))))
  ∧ (∀ (s : State) (c : CellNo) (h : HandlerAbility) (t : TesterAbility), s.handlerAbility c = some h →
      s.testerAbility c = some t →
      let cap : Capability := ⟨h.families, h.bandMin, h.bandMax, h.kit, t.options, h.sites &&& t.sites⟩
      (cap.sites = 0 → s.reported c = (s.setCell c
        { s.cell c with state := .fault, fault := some .noSites, negotiation := none }).ncel c)
      ∧ ∀ n, cap.sites ≠ 0 → (s.cell c).negotiation = some n → s.reported c =
        ((s.setCell c
          { s.cell c with
            state := .confirm
            negotiation := some
              { n with
                handlerAccepted := false
                testerAccepted := false
                proposed := some cap
                deadline := s.tables.parameters.negotiation } }).ncel c).notifyMembers c
          fun id => .ncnf id c cap)
  ∧ (∀ (s : State) (p : Port) (id : Id) (i : Position) (e : Entry) (c : CellNo) (cap : Capability),
    cap.InRange → s.Sends p .ecnf id (num1 c ++ cap.bytes) i e →
    let u := s.refresh i e p
    let x := s.cell c
    let answers (v : State) (r : Reply) : Prop :=
      exec (.ecnf p) s = .next ((v.reportReturn e.returnsTo id).answer p (some .ecnf) r)
    let member : Prop := x.handler = some id ∨ x.tester = some id
    (¬member → answers u (.check .unknownCell (BitVec.ofNat 32 c.val)))
    ∧ (member → x.state ≠ .confirm → answers u (.check .cellState (BitVec.ofNat 32 c.val)))
    ∧ ∀ n, member → x.state = .confirm → x.negotiation = some n →
      let marked : Negotiation :=
        if x.handler = some id then { n with handlerAccepted := true } else { n with testerAccepted := true }
      let v := u.setCell c { x with negotiation := some marked }
      (n.proposed ≠ some cap → answers ((u.setCell c
          { x with state := .fault, fault := some .mismatch, negotiation := none }).ncel c)
        (.check .inconsistent (BitVec.ofNat 32 c.val)))
      ∧ (n.proposed = some cap → ¬(marked.handlerAccepted = true ∧ marked.testerAccepted = true) →
        answers v (.good []))
      ∧ (n.proposed = some cap → marked.handlerAccepted = true ∧ marked.testerAccepted = true →
        answers (v.formed (some p) c cap) (.good [])))
  ∧ ∀ (s : State) (src : Option Port) (c : CellNo) (cap : Capability),
    let formed : Cell :=
      { s.cell c with
        common := some cap, active := cap.sites, thermal := ⟨none, false, 0⟩, failed := none,
        negotiation := none }
    let v := s.setCell c formed
    ((s.cell c).bound = none → s.formed src c cap =
      ((s.setCell c { formed with state := .idle }).ncel c).serve src c)
    ∧ ∀ l, s.boundLot c = some l →
      let q := s.product l
      let fits : Prop := ((formed.mode = .production ∧ l.cls = .production)
          ∨ (formed.mode = .engineering ∧ l.cls = .engineering))
        ∧ cap.families.getLsbD q.family.val = true ∧ cap.bandMin ≤ q.setPoint ∧ q.setPoint ≤ cap.bandMax
        ∧ (q.kit = cap.kit ∨ q.kit = 0) ∧ q.options &&& cap.options = q.options
      (fits → s.formed src c cap = (v.prepare src c).serve src c)
      ∧ (¬fits → s.formed src c cap = v.unbind src c l.id fun x => { x with state := .idle })

/-- EPLD and ELDF answer a cell's load request and remove it (R95 to R97): the program asked for goes into the
tester's entry and completes the program part that awaits it; another program, or a failed load, fails the
preparation that awaits it, and its lot is unbound. ETMP sets reached for the cell's set point and ends SETTLING
(R98). -/
def Obligations.PreparationReports : Prop :=
  (∀ (s : State) (p : Port) (id : Id) (i : Position) (e : Entry) (c : CellNo) (program : Id), program ≠ 0 →
    let u := s.refresh i e p
    let x := s.cell c
    let awaits : Prop := x.state = .preparing ∧ ∃ q, x.preparation = some q ∧ q.program = .pending
    let failing (l : Lot) : State := (u.setCell c
      { x with loadRequest := none, failed := some (s.product l).program, preparation := none }).unbind (some p) c
        l.id fun y => { y with state := .idle }
    let removed := u.setCell c { x with loadRequest := none }
    (s.Sends p .epld id (num1 c ++ be32 program) i e →
      let answers (v : State) (r : Reply) : Prop :=
        exec (.epld p) s = .next ((v.reportReturn e.returnsTo id).answer p (some .epld) r)
      (x.handler ≠ some id → x.tester ≠ some id → answers u (.check .unknownCell (BitVec.ofNat 32 c.val)))
      ∧ (x.handler = some id → x.tester ≠ some id → answers u (.check .kindMismatch id))
      ∧ (x.tester = some id →
        (x.loadRequest = none → answers u (.check .cellState (BitVec.ofNat 32 c.val)))
        ∧ (∀ t, x.loadRequest = some program → e.ability = .tester t →
          let held := u.setEntry i (some
            { e with age := 0, state := .present, port := p, ability := .tester { t with program := program } })
          (¬awaits → answers (held.setCell c { x with loadRequest := none }) (.good []))
          ∧ ∀ q, x.state = .preparing → x.preparation = some q → q.program = .pending →
            answers (((held.setCell c
              { x with
                loadRequest := none
                preparation := some { q with program := .done, loadDeadline := none } }).testPreparation (some p)
                c).serve (some p) c) (.good []))
        ∧ ∀ asked, x.loadRequest = some asked → program ≠ asked →
          (¬awaits → answers removed (.good []))
          ∧ ∀ l, awaits → s.boundLot c = some l → answers (failing l) (.good [])))
    ∧ (s.Sends p .eldf id (num1 c ++ be32 program) i e →
      let answers (v : State) (r : Reply) : Prop :=
        exec (.eldf p) s = .next ((v.reportReturn e.returnsTo id).answer p (some .eldf) r)
      (x.handler ≠ some id → x.tester ≠ some id → answers u (.check .unknownCell (BitVec.ofNat 32 c.val)))
      ∧ (x.handler = some id → x.tester ≠ some id → answers u (.check .kindMismatch id))
      ∧ (x.tester = some id →
        (x.loadRequest ≠ some program → answers u (.check .cellState (BitVec.ofNat 32 c.val)))
        ∧ (x.loadRequest = some program → ¬awaits → answers removed (.good []))
        ∧ ∀ l, x.loadRequest = some program → awaits → s.boundLot c = some l → answers (failing l) (.good []))))
  ∧ ∀ (s : State) (p : Port) (id : Id) (i : Position) (e : Entry) (c : CellNo) (t : Int), -60 ≤ t → t ≤ 200 →
    s.Sends p .etmp id (num1 c ++ temperature t) i e →
    let u := s.refresh i e p
    let x := s.cell c
    let answers (v : State) (r : Reply) : Prop :=
      exec (.etmp p) s = .next ((v.reportReturn e.returnsTo id).answer p (some .etmp) r)
    let reached : Cell := { x with thermal := { x.thermal with reached := true, soak := 0 } }
    (x.handler ≠ some id → x.tester ≠ some id → answers u (.check .unknownCell (BitVec.ofNat 32 c.val)))
    ∧ (x.tester = some id → x.handler ≠ some id → answers u (.check .kindMismatch id))
    ∧ (x.handler = some id →
      (x.thermal.setPoint ≠ some t → answers u (.check .cellState (BitVec.ofNat 32 c.val)))
      ∧ (x.thermal.setPoint = some t → x.thermal.reached = true → answers u (.good []))
      ∧ (x.thermal.setPoint = some t → x.thermal.reached = false →
        (¬(x.state = .preparing ∧ ∃ q, x.preparation = some q ∧ q.thermal = .settling) →
          answers (u.setCell c reached) (.good []))
        ∧ ∀ q l, x.state = .preparing → x.preparation = some q → q.thermal = .settling →
          s.boundLot c = some l →
          ((s.product l).soakTime ≠ 0 → answers (u.setCell c
            { reached with preparation := some { q with settleDeadline := none, thermal := .soaking } })
            (.good []))
          ∧ ((s.product l).soakTime = 0 → answers (((u.setCell c
            { reached with preparation := some { q with settleDeadline := none, thermal := .done } }
              ).testPreparation (some p) c).serve (some p) c) (.good []))))

/-- ERND is refused in the order of R105; accepted, the run takes the handler's count C and the reason, and B is
compared with C: below, the cell is CLOSING with the close deadline; equal, the run closes; above, it closes with
an EXCESS hold of B - C (R106, R107). The data are the outcome. The close test, made after each accepted EBIN (R107,
R124), closes the run of a CLOSING cell once B is at least C, with an EXCESS hold of B - C when it is above, and
changes nothing in any other state or while B is below C. -/
def Obligations.RunEndClosesOrAwaitsResults : Prop :=
  (∀ (s : State) (src : Option Port) (c : CellNo),
    ((s.cell c).state ≠ .closing → s.testClose src c = s)
    ∧ ∀ (r : Run) (count : Nat) (reason : EndReason), (s.cell c).state = .closing → (s.cell c).run = some r →
      r.handlerCount = some count → r.endReason = some reason →
      (r.binned < count → s.testClose src c = s)
      ∧ (r.binned = count → s.testClose src c = s.closeRun src c none reason)
      ∧ (count < r.binned → s.testClose src c = s.closeRun src c (some (1, r.binned - count)) reason))
  ∧ ∀ (s : State) (p : Port) (id : Id) (i : Position) (e : Entry) (f : ErndFields), f.InRange →
    s.Sends p .ernd id f.bytes i e →
    let c := f.cell
    let u := s.refresh i e p
    let x := s.cell c
    let answers (v : State) (r : Reply) : Prop :=
      exec (.ernd p) s = .next ((v.reportReturn e.returnsTo id).answer p (some .ernd) r)
    (x.handler ≠ some id → x.tester ≠ some id → answers u (.check .unknownCell (BitVec.ofNat 32 c.val)))
    ∧ (x.tester = some id → x.handler ≠ some id → answers u (.check .kindMismatch id))
    ∧ (x.handler = some id →
      (x.run = none → answers u (.check .runClosed (BitVec.ofNat 32 c.val)))
      ∧ ∀ r, x.run = some r →
        let taken : Run := { r with handlerCount := some f.count, endReason := some f.reason }
        let ended := u.setCell c { x with run := some taken }
        (r.number.toNat ≠ f.run → answers u (.check .wrongRun (BitVec.ofNat 32 c.val)))
        ∧ (r.number.toNat = f.run →
          (x.state = .closing → answers u (.check .cellState (BitVec.ofNat 32 c.val)))
          ∧ (f.reason = .stopped → r.stopFlag = false → answers u (.check .cellState (BitVec.ofNat 32 c.val)))
          ∧ (x.state ≠ .closing → f.reason = .exhausted ∨ r.stopFlag = true →
            (r.binned < f.count → answers ((u.setCell c
                { x with
                  state := .closing
                  run := some { taken with closeDeadline := some s.tables.parameters.close } }).ncel c)
              (.good [0x02]))
            ∧ (r.binned = f.count → answers (ended.closeRun (some p) c none f.reason) (.good [0x01]))
            ∧ (f.count < r.binned →
              answers (ended.closeRun (some p) c (some (1, r.binned - f.count)) f.reason) (.good [0x01])))))

/-! ## Results (chapter 7) -/

/-- EBIN is refused in the order of R117 and then by its first bad entry, its index the argument (R118): reserved bits
that are set, a site not in the run, an origin that the pass does not take; whole and without effect (R119). Accepted,
its units are counted into the lot and the run, an X that grew places a hold, and the running checks, the site check and
the close test follow in that order (R120, R123, R124). The data are the units counted and excluded and the run's B
and X. Every payload that reads as an EBIN is meant, entries with reserved bits among them (R196); the payloads of
`RequestPayloadsReadBack` do. -/
def Obligations.ResultMessageValidatedAndApplied : Prop :=
  ∀ (s : State) (p : Port) (id : Id) (i : Position) (e : Entry) (f : EbinFields) (payload : List Byte),
    readEbin payload = .ok f → s.Sends p .ebin id payload i e →
    let u := s.refresh i e p
    let answers (v : State) (r : Reply) : Prop :=
      exec (.ebin p) s = .next ((v.reportReturn e.returnsTo id).answer p (some .ebin) r)
    (s.lot f.lot = none → answers u (.check .unknownLot f.lot))
    ∧ ∀ l, s.lot f.lot = some l →
      (l.state ≠ .bound ∨ (∀ c, l.cell = some c → (s.cell c).tester ≠ some id) →
        answers u (.check .noRun f.lot))
      ∧ ∀ c, l.state = .bound → l.cell = some c → (s.cell c).tester = some id →
        ((s.cell c).run = none → answers u (.check .runClosed (BitVec.ofNat 32 c.val)))
        ∧ ∀ r, (s.cell c).run = some r →
          let plan : BinPlan := s.tables.plans[(s.product l).plan]
          let presented : BinEntry → Prop := fun b => r.sites.getLsbD b.site.val = true
          let drawn : BinEntry → Prop := fun b =>
            (r.pass = 0 ∧ b.origin = none) ∨ (r.pass ≠ 0 ∧ ∃ o, b.origin = some o ∧ plan[o].cls = .retest)
          let t := Tally.entries plan ⟨l, r, 0, 0⟩ f.entries
          let counted := (u.onLot f.lot fun _ => t.lot).setCell c { s.cell c with run := some t.run }
          let excess := if r.excess < t.run.excess then counted.placeHold (some p) f.lot .reconcile 1 t.run.excess
            else counted
          let done := ((excess.runningChecks (some p) f.lot).checkSites (some p) c f.lot).testClose (some p) c
          (r.number.toNat ≠ f.run → answers u (.check .wrongRun (BitVec.ofNat 32 c.val)))
          ∧ (r.number.toNat = f.run →
            (∀ front b back, f.entries = front ++ b :: back →
              (∀ a ∈ front, a.clean = true ∧ presented a ∧ drawn a) →
              (b.clean = false → answers u (.check .field (BitVec.ofNat 32 front.length)))
              ∧ (b.clean = true → ¬presented b → answers u (.check .siteNotInRun (BitVec.ofNat 32 front.length)))
              ∧ (b.clean = true → presented b → ¬drawn b → answers u (.check .field (BitVec.ofNat 32 front.length))))
            ∧ ((∀ a ∈ f.entries, a.clean = true ∧ presented a ∧ drawn a) → answers done
              (.good (be 2 t.counted ++ be 2 t.excluded ++ be 2 t.run.binned ++ be 2 t.run.excess))))

/-- One unit of a result (R121, R122). In pass 0 it is counted while T1 + D is below S: T1, B and its site's
statistics advance. In a later pass it is counted while its origin's pool has a unit, which it draws. A counted
unit goes to the next pool from a RETEST-class bin and to F from any other; a unit that is not counted advances X
alone, up to 65535. An entry stands for its repeat plus one units, one after another (R120). -/
def Obligations.UnitsCountedOrExcluded : Prop :=
  (∀ (plan : BinPlan) (b : BinEntry) (t : Tally),
    let stored (l : Lot) : Lot :=
      if plan[b.bin].cls = .retest then { l with poolNext := l.poolNext.set b.bin (l.poolNext[b.bin] + 1) }
      else { l with final := l.final.set b.bin (l.final[b.bin] + 1) }
    let excluded : Tally :=
      { t with run := { t.run with excess := min 65535 (t.run.excess + 1) }, excluded := t.excluded + 1 }
    (t.run.pass = 0 → b.origin = none →
      (t.lot.tested + t.lot.lost < t.lot.started → Tally.unit plan b t =
        { t with
          lot := stored { t.lot with tested := t.lot.tested + 1 }
          run :=
            { t.run with
              binned := t.run.binned + 1
              counts := t.run.counts.set b.site
                ⟨t.run.counts[b.site].seen + 1,
                  t.run.counts[b.site].passed + if plan[b.bin].cls = .pass then 1 else 0⟩ }
          counted := t.counted + 1 })
      ∧ (t.lot.started ≤ t.lot.tested + t.lot.lost → Tally.unit plan b t = excluded))
    ∧ ∀ o : Fin 16, t.run.pass ≠ 0 → b.origin = some o →
      (0 < t.lot.poolNow[o] → Tally.unit plan b t =
        { t with
          lot := stored { t.lot with poolNow := t.lot.poolNow.set o (t.lot.poolNow[o] - 1) }
          run := { t.run with binned := t.run.binned + 1 }
          counted := t.counted + 1 })
      ∧ (t.lot.poolNow[o] = 0 → Tally.unit plan b t = excluded))
  ∧ (∀ (plan : BinPlan) (b : BinEntry) (bs : List BinEntry) (t : Tally),
    Tally.entries plan t [] = t
    ∧ (b.again = 0 → Tally.entries plan t (b :: bs) = Tally.entries plan (Tally.unit plan b t) bs)
    ∧ ∀ n, b.again = n + 1 → Tally.entries plan t (b :: bs) =
        Tally.entries plan (Tally.unit plan b t) ({ b with again := n } :: bs))
  ∧ ∀ (plan : BinPlan) (bs : List BinEntry) (t : Tally),
    (Tally.entries plan t bs).counted + (Tally.entries plan t bs).excluded
      = t.counted + t.excluded + (bs.map fun b => b.again + 1).sum

/-- The running checks wait for T1 to reach the guard count (R129); the final checks are the same without that
condition (R134). The resolved yield 10000 x Fpass / Fall,
rounded down, places a YIELD hold when it is below the product's minimum (R125); each bin ratio, rounded up, a BIN
hold when it is above a limit below 10000 (R126), in ascending order of the bins (R134); both are skipped while
undefined. -/
def Obligations.YieldAndBinRatiosChecked : Prop :=
  ∀ (s : State) (src : Option Port) (id : Id) (l : Lot), s.lot id = some l →
    let plan : BinPlan := s.tables.plans[(s.product l).plan]
    let passed : Nat := (((List.finRange 16).filter fun b : Fin 16 => decide (plan[b].cls = BinClass.pass)).map
      fun b : Fin 16 => l.final[b]).sum
    let all : Nat := l.final.toList.sum
    (l.tested < (s.product l).guard → s.runningChecks src id = s)
    ∧ ((s.product l).guard ≤ l.tested → s.runningChecks src id =
        (List.finRange 16).foldl (fun u b => State.checkBin src id u b) (s.checkYield src id))
    ∧ s.checkRatios src id = (List.finRange 16).foldl (fun u b => State.checkBin src id u b) (s.checkYield src id)
    ∧ (all = 0 → s.checkYield src id = s)
    ∧ (all ≠ 0 → (s.product l).yieldMin ≤ 10000 * passed / all → s.checkYield src id = s)
    ∧ (all ≠ 0 → 10000 * passed / all < (s.product l).yieldMin →
        s.checkYield src id = s.placeHold src id .yield 0 (10000 * passed / all))
    ∧ ∀ b : Fin 16,
      let limit := plan[b].limit
      let ratio := (10000 * l.final[b] + l.tested - 1) / l.tested
      (l.tested = 0 → State.checkBin src id s b = s)
      ∧ (l.tested ≠ 0 → limit = 10000 ∨ ratio ≤ limit → State.checkBin src id s b = s)
      ∧ (l.tested ≠ 0 → limit < 10000 → limit < ratio →
          State.checkBin src id s b = s.placeHold src id .bin b.val ratio)

/-- The site-delta check of a run of pass 0 (R127, R131 to R133): among the sites that have seen the guard count,
the active one of the lowest yield, the lower number among equals, leaves the active site set when it lies more
than the product's limit below the best; NSDS goes to both members, and an emptied set places a SITE hold. -/
def Obligations.LowSiteLeavesActiveSet : Prop :=
  ∀ (s : State) (src : Option Port) (c : CellNo) (id : Id) (l : Lot) (r : Run),
    s.lot id = some l → (s.cell c).run = some r →
    let q := s.product l
    let x := s.cell c
    let yieldAt : Fin 8 → Nat := fun n => 10000 * r.counts[n].passed / r.counts[n].seen
    let qualifies : Fin 8 → Prop := fun n => r.sites.getLsbD n.val = true ∧ q.siteGuard ≤ r.counts[n].seen
    let lowest : Fin 8 → Prop := fun n => qualifies n ∧ x.active.getLsbD n.val = true
      ∧ ∀ m, qualifies m → x.active.getLsbD m.val = true →
        yieldAt n < yieldAt m ∨ (yieldAt n = yieldAt m ∧ n.val ≤ m.val)
    let best : Fin 8 → Prop := fun n => qualifies n ∧ ∀ m, qualifies m → yieldAt m ≤ yieldAt n
    (r.pass ≠ 0 → s.checkSites src c id = s)
    ∧ ((∀ n, ¬(qualifies n ∧ x.active.getLsbD n.val = true)) → s.checkSites src c id = s)
    ∧ ∀ low top, r.pass = 0 → lowest low → best top →
      (yieldAt top - yieldAt low ≤ q.siteLimit → s.checkSites src c id = s)
      ∧ (q.siteLimit < yieldAt top - yieldAt low → ∃ active : SiteSet,
        (∀ n : Fin 8, active.getLsbD n.val = true ↔ x.active.getLsbD n.val = true ∧ n ≠ low)
        ∧ (let removed := (s.setCell c { x with active := active }).notifyMembers c fun m =>
            .nsds m c id r.number low (yieldAt low) (yieldAt top) active
          s.checkSites src c id =
            if active = 0 then removed.placeHold src id .site c.val low.val else removed))

/-- The sample decision for a lot that is TESTED and unheld (R153 to R155): the size n by the four steps of R154;
with a permille of 0 or an n of 0 the lot is ACCEPTED with no rejects, and else it is SAMPLING with NSMP for the
QA station. Any other lot is not decided. -/
def Obligations.SampleDecidedByFourSteps : Prop :=
  ∀ (s : State) (id : Id) (l : Lot), s.lot id = some l →
    let q := s.product l
    let plan : BinPlan := s.tables.plans[q.plan]
    let good : Nat := (((List.finRange 16).filter fun b : Fin 16 => decide (plan[b].cls = BinClass.pass)).map
      fun b : Fin 16 => l.final[b]).sum
    let raw := (good * q.samplePermille + 999) / 1000
    let raised := if raw < q.sampleMin then q.sampleMin else raw
    let capped := if q.sampleMax < raised then q.sampleMax else raised
    let n := if good < capped then good else capped
    let decided : Prop := l.state = .tested ∧ l.holdCount = 0 ∧ l.overflow = false
    (¬decided → s.decideSample id = s)
    ∧ (decided → q.samplePermille = 0 ∨ n = 0 → s.decideSample id =
        (s.onLot id fun l => { l with state := .accepted, rejects := 0 }).nlot id .accepted)
    ∧ (decided → q.samplePermille ≠ 0 → n ≠ 0 → s.decideSample id =
        ((s.onLot id fun l => { l with sampleSize := some n, state := .sampling, samplePending := true }).notify 1
          (.nsmp id l.product n)).nlot id .sampling)

/-! ## Headlines: the limits of the records, and the requests read back -/

/-- Headline. Every step keeps every port unit within the limits of chapter 1 (R2, R5, R6, R13 to R17): the rooms
of the intake queue and the outbox, one unsent notice of a kind and object, a flow slot that agrees with the
hold-off flag, counters that saturate. -/
def Obligations.PortLimitsKept : Prop :=
  ∀ s t : State, s.PortsSound → Sys2Proof.Machine.step s = .next t → t.PortsSound

/-- Headline. Every step keeps every lot's account in balance and the lot table within its room with no id twice
(R55, R56, R59, R60): F, Pcur and Pnext add up to T1, and T1 + D never exceeds S. -/
def Obligations.LotAccountsKept : Prop :=
  ∀ s t : State, s.LotsSound → Sys2Proof.Machine.step s = .next t → t.LotsSound

/-- Headline. Every step keeps the hold list within 64 records with no key twice, every record on a lot of the
table, and every lot's hold count the number of its records (R57, R136, R137, R149). -/
def Obligations.HoldCountsKept : Prop :=
  ∀ s t : State, s.HoldsSound → Sys2Proof.Machine.step s = .next t → t.HoldsSound

/-- Headline. Every step keeps the release queue within 32 records, all in the offer state of the RELEASE gate, and
exactly on the lots in RELEASED, each once and none of them held (R162, R163). -/
def Obligations.ReleaseQueueKept : Prop :=
  ∀ s t : State, s.Sound → Sys2Proof.Machine.step s = .next t → t.ReleaseSound

/-- Headline. Every step keeps the dispatch queue holding exactly the lots that are WAITING and unheld, each once
(R74). -/
def Obligations.DispatchQueueKept : Prop :=
  ∀ s t : State, s.Sound → Sys2Proof.Machine.step s = .next t → t.QueueSound

/-- Headline. Every step keeps lots and cells in agreement (R34, R57, R59): a lot is BOUND exactly while it names a
cell, and the two name each other; each cell has the parts that the table of 3.2 gives its state: its negotiation,
preparation and run records, its fault reason, its bound lot, its common capability; a RUNNING cell's lot is unheld and
a PAUSED cell's lot is held. -/
def Obligations.BindingOfLotsAndCellsKept : Prop :=
  ∀ s t : State, s.Sound → Sys2Proof.Machine.step s = .next t → t.BindingSound

/-- Headline. Every step keeps the equipment table with no id twice, at most 4 entries on a port, ages that saturate,
and memberships that agree with the members the cells name (R20, R23, R30), and the clock's seconds and period minute
within their ranges (R170, R172). -/
def Obligations.EquipmentTableAndClockKept : Prop :=
  ∀ s t : State, s.Sound → Sys2Proof.Machine.step s = .next t → t.EquipmentSound ∧ t.ClockSound

/-- Between ticks, what each record is changed by is its own (R55, R66, R171, R181, R183, R187 to R194): with no
event to be taken first, only the requests and events named here change the configuration state, the tables, the
store or the minute stamp; a lot that stays keeps its product, class, entry sequence and started quantity, and
only LPRI changes its base priority. -/
def Obligations.RecordsChangeOnlyByTheirCommands : Prop :=
  ∀ (i : Instr) (s t : State), s.Quiet → exec i s = .next t →
    (t.configState ≠ s.configState → (∃ cut, i = .powerOnReset cut) ∨ (∃ r, i = .startUpLoad r)
      ∨ (∃ r, i = .storeLoadReattempt r) ∨ ∃ p, i = .crdy p)
    ∧ (t.tables ≠ s.tables → (∃ cut, i = .powerOnReset cut) ∨ (∃ r, i = .startUpLoad r)
      ∨ (∃ r, i = .storeLoadReattempt r) ∨ ∃ p, i = .wprd p ∨ i = .wbpl p ∨ i = .wpar p ∨ i = .wwin p)
    ∧ (t.store ≠ s.store → (∃ cut, i = .powerOnReset cut) ∨ (∃ r, i = .storeWrite r) ∨ ∃ p, i = .csav p)
    ∧ (t.clock.stamp ≠ s.clock.stamp → ∃ cut, i = .powerOnReset cut)
    ∧ (s.LotsSound → ∀ l ∈ s.lots, ∀ l' ∈ t.lots, l'.id = l.id → l'.product = l.product ∧ l'.cls = l.cls
      ∧ l'.sequence = l.sequence ∧ l'.started = l.started
      ∧ (l'.basePriority ≠ l.basePriority → ∃ p, i = .lpri p))

/-- Every request's payload is read back whole: what a partner writes within the ranges, every field at
every value it may take, is what the port unit reads (R9, R195, R196, 12.4, 12.5), the reserved bits of EBIN's entries
included. That the echo of an ECNF has no range is the model's inference (log 11), and the byte order of sets and
temperatures its choice (log 35). -/
def Obligations.RequestPayloadsReadBack : Prop :=
  (∀ f : LentFields, f.InRange → readLent f.bytes = .ok f)
  ∧ (∀ (id : Id) (k : Nat), id ≠ 0 → k ≤ 7 →
      readLotId (be32 id) = .ok id ∧ readLpri (be32 id ++ be 1 k) = .ok (id, k))
  ∧ (∀ (id : Id) (n : Nat), id ≠ 0 → n ≤ 63 → readQlotLot (0x01 :: be32 id) = .ok id
      ∧ readQlotLot (0x02 :: be32 id) = .ok id ∧ readQlotHolds (0x03 :: (be32 id ++ be 1 n)) = .ok (id, n)
      ∧ readQlotList (0x04 :: be32 id) = .ok id)
  ∧ (∀ (id : Id) (n : Nat), id ≠ 0 → n ≤ 65535 → readHold (be32 id ++ be 2 n) = .ok (id, n))
  ∧ (∀ f : HclrFields, f.InRange → readHclr f.bytes = .ok f)
  ∧ (∀ (c : CellNo) (h t : Id), h ≠ 0 → t ≠ 0 → readCell (num1 c) = .ok c
      ∧ readCdck (num1 c ++ be32 h ++ be32 t) = .ok (c, h, t) ∧ readProgram (num1 c ++ be32 h) = .ok (c, h))
  ∧ (∀ (c : CellNo) (m : Mode) (x : Fin 8), readCmod (num1 c ++ [m.byte]) = .ok (c, m)
      ∧ readCsen (num1 c ++ num1 x) = .ok (c, x))
  ∧ (∀ id : Id, readQeqp (be32 id) = .ok id)
  ∧ (∀ (id : Id) (m r : Nat), id ≠ 0 → 1 ≤ m → m ≤ 2000 → r ≤ m →
      readQres (be32 id ++ be 2 m ++ be 2 r) = .ok (id, m, r))
  ∧ (readClks [0x00] = .ok none ∧ ∀ m, m ≤ 10079 → readClks (0x01 :: be 2 m) = .ok (some m))
  ∧ (∀ (i : Fin 32) (q : Product), q.InRange → readWprd (num1 i ++ q.bytes) = .ok (i, q))
  ∧ (∀ (i : Fin 8) (plan : BinPlan), plan.InRange → readWbpl (num1 i ++ plan.bytes) = .ok (i, plan))
  ∧ (∀ q : Parameters, q.InRange → readWpar q.bytes = .ok q)
  ∧ (∀ (i : Fin 4) (w : Window), w.start ≤ 10079 → w.stop ≤ 10079 → readWwin (num1 i ++ w.bytes) = .ok (i, w))
  ∧ (∀ a : Ability, a.InRange → readEann a.announced = .ok a
      ∧ ∀ c : CellNo, readEabl (num1 c ++ a.announced) = .ok (c, a))
  ∧ (∀ (c : CellNo) (cap : Capability), cap.InRange → readEcnf (num1 c ++ cap.bytes) = .ok (c, cap))
  ∧ (∀ (c : CellNo) (t : Int), -60 ≤ t → t ≤ 200 → readEtmp (num1 c ++ temperature t) = .ok (c, t))
  ∧ (∀ f : ErndFields, f.InRange → readErnd f.bytes = .ok f)
  ∧ (∀ f : EbinFields, f.InRange → readEbin f.bytes = .ok f)
  ∧ ∀ (lot : Id) (run : Nat) (es : List (BinEntry × Reserved)), lot ≠ 0 → run ≤ 65535 → 1 ≤ es.length →
      es.length ≤ 120 →
      (∀ x ∈ es, x.1.again ≤ 127
        ∧ (x.1.clean = true ↔ x.2.second = false ∧ (x.1.origin = none ∨ x.2.third = 0))) →
      readEbin (be32 lot ++ be 2 run ++ be 1 es.length ++ es.flatMap fun x => x.1.wire x.2)
        = .ok ⟨lot, run, es.map fun x => x.1⟩
end

