-- ==== Sys2Proof/Laws/State.lean ====
section
/-! SUPPORT. What each update of State leaves alone, field by field and reader by reader, and what a reader
gives of the record that an update writes. -/

namespace Sys2Proof.Machine

/-! ## What an update leaves alone -/

section setPort
variable (s : State) (p : Port) (u : PortUnit)
@[simp] theorem State.setPort_equipment : (s.setPort p u).equipment = s.equipment := rfl
@[simp] theorem State.setPort_cells : (s.setPort p u).cells = s.cells := rfl
@[simp] theorem State.setPort_lots : (s.setPort p u).lots = s.lots := rfl
@[simp] theorem State.setPort_sequence : (s.setPort p u).sequence = s.sequence := rfl
@[simp] theorem State.setPort_queue : (s.setPort p u).queue = s.queue := rfl
@[simp] theorem State.setPort_holds : (s.setPort p u).holds = s.holds := rfl
@[simp] theorem State.setPort_shipments : (s.setPort p u).shipments = s.shipments := rfl
@[simp] theorem State.setPort_armed : (s.setPort p u).armed = s.armed := rfl
@[simp] theorem State.setPort_clock : (s.setPort p u).clock = s.clock := rfl
@[simp] theorem State.setPort_tables : (s.setPort p u).tables = s.tables := rfl
@[simp] theorem State.setPort_configState : (s.setPort p u).configState = s.configState := rfl
@[simp] theorem State.setPort_storeJob : (s.setPort p u).storeJob = s.storeJob := rfl
@[simp] theorem State.setPort_store : (s.setPort p u).store = s.store := rfl
@[simp] theorem State.setPort_due : (s.setPort p u).due = s.due := rfl
@[simp] theorem State.setPort_pending : (s.setPort p u).pending = s.pending := rfl
@[simp] theorem State.setPort_cell (d : CellNo) : (s.setPort p u).cell d = s.cell d := rfl
@[simp] theorem State.setPort_entry (j : Position) : (s.setPort p u).entry j = s.entry j := rfl
@[simp] theorem State.setPort_lot (k : Id) : (s.setPort p u).lot k = s.lot k := rfl
@[simp] theorem State.setPort_product (l : Lot) : (s.setPort p u).product l = s.product l := rfl
@[simp] theorem State.setPort_planOf (l : Lot) : (s.setPort p u).planOf l = s.planOf l := rfl
@[simp] theorem State.setPort_boundLot (d : CellNo) : (s.setPort p u).boundLot d = s.boundLot d := rfl
@[simp] theorem State.setPort_lotUnheld (k : Id) : (s.setPort p u).lotUnheld k = s.lotUnheld k := rfl
@[simp] theorem State.setPort_find (k : Id) : (s.setPort p u).find k = s.find k := rfl
@[simp] theorem State.setPort_equip (k : Id) : (s.setPort p u).equip k = s.equip k := rfl
@[simp] theorem State.setPort_isPresent (k : Id) : (s.setPort p u).isPresent k = s.isPresent k := rfl
@[simp] theorem State.setPort_portCount (q : Port) : (s.setPort p u).portCount q = s.portCount q := rfl
@[simp] theorem State.setPort_handlerAbility (d : CellNo) : (s.setPort p u).handlerAbility d = s.handlerAbility d := rfl
@[simp] theorem State.setPort_testerAbility (d : CellNo) : (s.setPort p u).testerAbility d = s.testerAbility d := rfl
@[simp] theorem State.setPort_loadedProgram (d : CellNo) : (s.setPort p u).loadedProgram d = s.loadedProgram d := rfl
@[simp] theorem State.setPort_membersPresent (d : CellNo) : (s.setPort p u).membersPresent d = s.membersPresent d := rfl
@[simp] theorem State.setPort_inQueue (k : Id) : (s.setPort p u).inQueue k = s.inQueue k := rfl
@[simp] theorem State.setPort_shipment (k : Id) : (s.setPort p u).shipment k = s.shipment k := rfl
@[simp] theorem State.setPort_offeredCount : (s.setPort p u).offeredCount = s.offeredCount := rfl
end setPort

section onPort
variable (s : State) (p : Port) (f : PortUnit → PortUnit)
@[simp] theorem State.onPort_equipment : (s.onPort p f).equipment = s.equipment := rfl
@[simp] theorem State.onPort_cells : (s.onPort p f).cells = s.cells := rfl
@[simp] theorem State.onPort_lots : (s.onPort p f).lots = s.lots := rfl
@[simp] theorem State.onPort_sequence : (s.onPort p f).sequence = s.sequence := rfl
@[simp] theorem State.onPort_queue : (s.onPort p f).queue = s.queue := rfl
@[simp] theorem State.onPort_holds : (s.onPort p f).holds = s.holds := rfl
@[simp] theorem State.onPort_shipments : (s.onPort p f).shipments = s.shipments := rfl
@[simp] theorem State.onPort_armed : (s.onPort p f).armed = s.armed := rfl
@[simp] theorem State.onPort_clock : (s.onPort p f).clock = s.clock := rfl
@[simp] theorem State.onPort_tables : (s.onPort p f).tables = s.tables := rfl
@[simp] theorem State.onPort_configState : (s.onPort p f).configState = s.configState := rfl
@[simp] theorem State.onPort_storeJob : (s.onPort p f).storeJob = s.storeJob := rfl
@[simp] theorem State.onPort_store : (s.onPort p f).store = s.store := rfl
@[simp] theorem State.onPort_due : (s.onPort p f).due = s.due := rfl
@[simp] theorem State.onPort_pending : (s.onPort p f).pending = s.pending := rfl
@[simp] theorem State.onPort_cell (d : CellNo) : (s.onPort p f).cell d = s.cell d := rfl
@[simp] theorem State.onPort_entry (j : Position) : (s.onPort p f).entry j = s.entry j := rfl
@[simp] theorem State.onPort_lot (k : Id) : (s.onPort p f).lot k = s.lot k := rfl
@[simp] theorem State.onPort_product (l : Lot) : (s.onPort p f).product l = s.product l := rfl
@[simp] theorem State.onPort_planOf (l : Lot) : (s.onPort p f).planOf l = s.planOf l := rfl
@[simp] theorem State.onPort_boundLot (d : CellNo) : (s.onPort p f).boundLot d = s.boundLot d := rfl
@[simp] theorem State.onPort_lotUnheld (k : Id) : (s.onPort p f).lotUnheld k = s.lotUnheld k := rfl
@[simp] theorem State.onPort_find (k : Id) : (s.onPort p f).find k = s.find k := rfl
@[simp] theorem State.onPort_equip (k : Id) : (s.onPort p f).equip k = s.equip k := rfl
@[simp] theorem State.onPort_isPresent (k : Id) : (s.onPort p f).isPresent k = s.isPresent k := rfl
@[simp] theorem State.onPort_portCount (q : Port) : (s.onPort p f).portCount q = s.portCount q := rfl
@[simp] theorem State.onPort_handlerAbility (d : CellNo) : (s.onPort p f).handlerAbility d = s.handlerAbility d := rfl
@[simp] theorem State.onPort_testerAbility (d : CellNo) : (s.onPort p f).testerAbility d = s.testerAbility d := rfl
@[simp] theorem State.onPort_loadedProgram (d : CellNo) : (s.onPort p f).loadedProgram d = s.loadedProgram d := rfl
@[simp] theorem State.onPort_membersPresent (d : CellNo) : (s.onPort p f).membersPresent d = s.membersPresent d := rfl
@[simp] theorem State.onPort_inQueue (k : Id) : (s.onPort p f).inQueue k = s.inQueue k := rfl
@[simp] theorem State.onPort_shipment (k : Id) : (s.onPort p f).shipment k = s.shipment k := rfl
@[simp] theorem State.onPort_offeredCount : (s.onPort p f).offeredCount = s.offeredCount := rfl
end onPort

section onPorts
variable (s : State) (f : PortUnit → PortUnit)
@[simp] theorem State.onPorts_equipment : (s.onPorts f).equipment = s.equipment := rfl
@[simp] theorem State.onPorts_cells : (s.onPorts f).cells = s.cells := rfl
@[simp] theorem State.onPorts_lots : (s.onPorts f).lots = s.lots := rfl
@[simp] theorem State.onPorts_sequence : (s.onPorts f).sequence = s.sequence := rfl
@[simp] theorem State.onPorts_queue : (s.onPorts f).queue = s.queue := rfl
@[simp] theorem State.onPorts_holds : (s.onPorts f).holds = s.holds := rfl
@[simp] theorem State.onPorts_shipments : (s.onPorts f).shipments = s.shipments := rfl
@[simp] theorem State.onPorts_armed : (s.onPorts f).armed = s.armed := rfl
@[simp] theorem State.onPorts_clock : (s.onPorts f).clock = s.clock := rfl
@[simp] theorem State.onPorts_tables : (s.onPorts f).tables = s.tables := rfl
@[simp] theorem State.onPorts_configState : (s.onPorts f).configState = s.configState := rfl
@[simp] theorem State.onPorts_storeJob : (s.onPorts f).storeJob = s.storeJob := rfl
@[simp] theorem State.onPorts_store : (s.onPorts f).store = s.store := rfl
@[simp] theorem State.onPorts_due : (s.onPorts f).due = s.due := rfl
@[simp] theorem State.onPorts_pending : (s.onPorts f).pending = s.pending := rfl
@[simp] theorem State.onPorts_cell (d : CellNo) : (s.onPorts f).cell d = s.cell d := rfl
@[simp] theorem State.onPorts_entry (j : Position) : (s.onPorts f).entry j = s.entry j := rfl
@[simp] theorem State.onPorts_lot (k : Id) : (s.onPorts f).lot k = s.lot k := rfl
@[simp] theorem State.onPorts_product (l : Lot) : (s.onPorts f).product l = s.product l := rfl
@[simp] theorem State.onPorts_planOf (l : Lot) : (s.onPorts f).planOf l = s.planOf l := rfl
@[simp] theorem State.onPorts_boundLot (d : CellNo) : (s.onPorts f).boundLot d = s.boundLot d := rfl
@[simp] theorem State.onPorts_lotUnheld (k : Id) : (s.onPorts f).lotUnheld k = s.lotUnheld k := rfl
@[simp] theorem State.onPorts_find (k : Id) : (s.onPorts f).find k = s.find k := rfl
@[simp] theorem State.onPorts_equip (k : Id) : (s.onPorts f).equip k = s.equip k := rfl
@[simp] theorem State.onPorts_isPresent (k : Id) : (s.onPorts f).isPresent k = s.isPresent k := rfl
@[simp] theorem State.onPorts_portCount (q : Port) : (s.onPorts f).portCount q = s.portCount q := rfl
@[simp] theorem State.onPorts_handlerAbility (d : CellNo) : (s.onPorts f).handlerAbility d = s.handlerAbility d := rfl
@[simp] theorem State.onPorts_testerAbility (d : CellNo) : (s.onPorts f).testerAbility d = s.testerAbility d := rfl
@[simp] theorem State.onPorts_loadedProgram (d : CellNo) : (s.onPorts f).loadedProgram d = s.loadedProgram d := rfl
@[simp] theorem State.onPorts_membersPresent (d : CellNo) : (s.onPorts f).membersPresent d = s.membersPresent d := rfl
@[simp] theorem State.onPorts_inQueue (k : Id) : (s.onPorts f).inQueue k = s.inQueue k := rfl
@[simp] theorem State.onPorts_shipment (k : Id) : (s.onPorts f).shipment k = s.shipment k := rfl
@[simp] theorem State.onPorts_offeredCount : (s.onPorts f).offeredCount = s.offeredCount := rfl
end onPorts

section notify
variable (s : State) (p : Port) (n : Notice)
@[simp] theorem State.notify_equipment : (s.notify p n).equipment = s.equipment := rfl
@[simp] theorem State.notify_cells : (s.notify p n).cells = s.cells := rfl
@[simp] theorem State.notify_lots : (s.notify p n).lots = s.lots := rfl
@[simp] theorem State.notify_sequence : (s.notify p n).sequence = s.sequence := rfl
@[simp] theorem State.notify_queue : (s.notify p n).queue = s.queue := rfl
@[simp] theorem State.notify_holds : (s.notify p n).holds = s.holds := rfl
@[simp] theorem State.notify_shipments : (s.notify p n).shipments = s.shipments := rfl
@[simp] theorem State.notify_armed : (s.notify p n).armed = s.armed := rfl
@[simp] theorem State.notify_clock : (s.notify p n).clock = s.clock := rfl
@[simp] theorem State.notify_tables : (s.notify p n).tables = s.tables := rfl
@[simp] theorem State.notify_configState : (s.notify p n).configState = s.configState := rfl
@[simp] theorem State.notify_storeJob : (s.notify p n).storeJob = s.storeJob := rfl
@[simp] theorem State.notify_store : (s.notify p n).store = s.store := rfl
@[simp] theorem State.notify_due : (s.notify p n).due = s.due := rfl
@[simp] theorem State.notify_pending : (s.notify p n).pending = s.pending := rfl
@[simp] theorem State.notify_cell (d : CellNo) : (s.notify p n).cell d = s.cell d := rfl
@[simp] theorem State.notify_entry (j : Position) : (s.notify p n).entry j = s.entry j := rfl
@[simp] theorem State.notify_lot (k : Id) : (s.notify p n).lot k = s.lot k := rfl
@[simp] theorem State.notify_product (l : Lot) : (s.notify p n).product l = s.product l := rfl
@[simp] theorem State.notify_planOf (l : Lot) : (s.notify p n).planOf l = s.planOf l := rfl
@[simp] theorem State.notify_boundLot (d : CellNo) : (s.notify p n).boundLot d = s.boundLot d := rfl
@[simp] theorem State.notify_lotUnheld (k : Id) : (s.notify p n).lotUnheld k = s.lotUnheld k := rfl
@[simp] theorem State.notify_find (k : Id) : (s.notify p n).find k = s.find k := rfl
@[simp] theorem State.notify_equip (k : Id) : (s.notify p n).equip k = s.equip k := rfl
@[simp] theorem State.notify_isPresent (k : Id) : (s.notify p n).isPresent k = s.isPresent k := rfl
@[simp] theorem State.notify_portCount (q : Port) : (s.notify p n).portCount q = s.portCount q := rfl
@[simp] theorem State.notify_handlerAbility (d : CellNo) : (s.notify p n).handlerAbility d = s.handlerAbility d := rfl
@[simp] theorem State.notify_testerAbility (d : CellNo) : (s.notify p n).testerAbility d = s.testerAbility d := rfl
@[simp] theorem State.notify_loadedProgram (d : CellNo) : (s.notify p n).loadedProgram d = s.loadedProgram d := rfl
@[simp] theorem State.notify_membersPresent (d : CellNo) : (s.notify p n).membersPresent d = s.membersPresent d := rfl
@[simp] theorem State.notify_inQueue (k : Id) : (s.notify p n).inQueue k = s.inQueue k := rfl
@[simp] theorem State.notify_shipment (k : Id) : (s.notify p n).shipment k = s.shipment k := rfl
@[simp] theorem State.notify_offeredCount : (s.notify p n).offeredCount = s.offeredCount := rfl
end notify

section answer
variable (s : State) (p : Port) (r : Option Req) (reply : Reply)
@[simp] theorem State.answer_equipment : (s.answer p r reply).equipment = s.equipment := rfl
@[simp] theorem State.answer_cells : (s.answer p r reply).cells = s.cells := rfl
@[simp] theorem State.answer_lots : (s.answer p r reply).lots = s.lots := rfl
@[simp] theorem State.answer_sequence : (s.answer p r reply).sequence = s.sequence := rfl
@[simp] theorem State.answer_queue : (s.answer p r reply).queue = s.queue := rfl
@[simp] theorem State.answer_holds : (s.answer p r reply).holds = s.holds := rfl
@[simp] theorem State.answer_shipments : (s.answer p r reply).shipments = s.shipments := rfl
@[simp] theorem State.answer_armed : (s.answer p r reply).armed = s.armed := rfl
@[simp] theorem State.answer_clock : (s.answer p r reply).clock = s.clock := rfl
@[simp] theorem State.answer_tables : (s.answer p r reply).tables = s.tables := rfl
@[simp] theorem State.answer_configState : (s.answer p r reply).configState = s.configState := rfl
@[simp] theorem State.answer_storeJob : (s.answer p r reply).storeJob = s.storeJob := rfl
@[simp] theorem State.answer_store : (s.answer p r reply).store = s.store := rfl
@[simp] theorem State.answer_due : (s.answer p r reply).due = s.due := rfl
@[simp] theorem State.answer_pending : (s.answer p r reply).pending = s.pending := rfl
@[simp] theorem State.answer_cell (d : CellNo) : (s.answer p r reply).cell d = s.cell d := rfl
@[simp] theorem State.answer_entry (j : Position) : (s.answer p r reply).entry j = s.entry j := rfl
@[simp] theorem State.answer_lot (k : Id) : (s.answer p r reply).lot k = s.lot k := rfl
@[simp] theorem State.answer_product (l : Lot) : (s.answer p r reply).product l = s.product l := rfl
@[simp] theorem State.answer_planOf (l : Lot) : (s.answer p r reply).planOf l = s.planOf l := rfl
@[simp] theorem State.answer_boundLot (d : CellNo) : (s.answer p r reply).boundLot d = s.boundLot d := rfl
@[simp] theorem State.answer_lotUnheld (k : Id) : (s.answer p r reply).lotUnheld k = s.lotUnheld k := rfl
@[simp] theorem State.answer_find (k : Id) : (s.answer p r reply).find k = s.find k := rfl
@[simp] theorem State.answer_equip (k : Id) : (s.answer p r reply).equip k = s.equip k := rfl
@[simp] theorem State.answer_isPresent (k : Id) : (s.answer p r reply).isPresent k = s.isPresent k := rfl
@[simp] theorem State.answer_portCount (q : Port) : (s.answer p r reply).portCount q = s.portCount q := rfl
@[simp] theorem State.answer_handlerAbility (d : CellNo) : (s.answer p r reply).handlerAbility d = s.handlerAbility d := rfl
@[simp] theorem State.answer_testerAbility (d : CellNo) : (s.answer p r reply).testerAbility d = s.testerAbility d := rfl
@[simp] theorem State.answer_loadedProgram (d : CellNo) : (s.answer p r reply).loadedProgram d = s.loadedProgram d := rfl
@[simp] theorem State.answer_membersPresent (d : CellNo) : (s.answer p r reply).membersPresent d = s.membersPresent d := rfl
@[simp] theorem State.answer_inQueue (k : Id) : (s.answer p r reply).inQueue k = s.inQueue k := rfl
@[simp] theorem State.answer_shipment (k : Id) : (s.answer p r reply).shipment k = s.shipment k := rfl
@[simp] theorem State.answer_offeredCount : (s.answer p r reply).offeredCount = s.offeredCount := rfl
end answer

section answerStartUp
variable (s : State) (p : Port) (r : Option Req)
@[simp] theorem State.answerStartUp_equipment : (s.answerStartUp p r).equipment = s.equipment := rfl
@[simp] theorem State.answerStartUp_cells : (s.answerStartUp p r).cells = s.cells := rfl
@[simp] theorem State.answerStartUp_lots : (s.answerStartUp p r).lots = s.lots := rfl
@[simp] theorem State.answerStartUp_sequence : (s.answerStartUp p r).sequence = s.sequence := rfl
@[simp] theorem State.answerStartUp_queue : (s.answerStartUp p r).queue = s.queue := rfl
@[simp] theorem State.answerStartUp_holds : (s.answerStartUp p r).holds = s.holds := rfl
@[simp] theorem State.answerStartUp_shipments : (s.answerStartUp p r).shipments = s.shipments := rfl
@[simp] theorem State.answerStartUp_armed : (s.answerStartUp p r).armed = s.armed := rfl
@[simp] theorem State.answerStartUp_clock : (s.answerStartUp p r).clock = s.clock := rfl
@[simp] theorem State.answerStartUp_tables : (s.answerStartUp p r).tables = s.tables := rfl
@[simp] theorem State.answerStartUp_configState : (s.answerStartUp p r).configState = s.configState := rfl
@[simp] theorem State.answerStartUp_storeJob : (s.answerStartUp p r).storeJob = s.storeJob := rfl
@[simp] theorem State.answerStartUp_store : (s.answerStartUp p r).store = s.store := rfl
@[simp] theorem State.answerStartUp_due : (s.answerStartUp p r).due = s.due := rfl
@[simp] theorem State.answerStartUp_pending : (s.answerStartUp p r).pending = s.pending := rfl
@[simp] theorem State.answerStartUp_cell (d : CellNo) : (s.answerStartUp p r).cell d = s.cell d := rfl
@[simp] theorem State.answerStartUp_entry (j : Position) : (s.answerStartUp p r).entry j = s.entry j := rfl
@[simp] theorem State.answerStartUp_lot (k : Id) : (s.answerStartUp p r).lot k = s.lot k := rfl
@[simp] theorem State.answerStartUp_product (l : Lot) : (s.answerStartUp p r).product l = s.product l := rfl
@[simp] theorem State.answerStartUp_planOf (l : Lot) : (s.answerStartUp p r).planOf l = s.planOf l := rfl
@[simp] theorem State.answerStartUp_boundLot (d : CellNo) : (s.answerStartUp p r).boundLot d = s.boundLot d := rfl
@[simp] theorem State.answerStartUp_lotUnheld (k : Id) : (s.answerStartUp p r).lotUnheld k = s.lotUnheld k := rfl
@[simp] theorem State.answerStartUp_find (k : Id) : (s.answerStartUp p r).find k = s.find k := rfl
@[simp] theorem State.answerStartUp_equip (k : Id) : (s.answerStartUp p r).equip k = s.equip k := rfl
@[simp] theorem State.answerStartUp_isPresent (k : Id) : (s.answerStartUp p r).isPresent k = s.isPresent k := rfl
@[simp] theorem State.answerStartUp_portCount (q : Port) : (s.answerStartUp p r).portCount q = s.portCount q := rfl
@[simp] theorem State.answerStartUp_handlerAbility (d : CellNo) : (s.answerStartUp p r).handlerAbility d = s.handlerAbility d := rfl
@[simp] theorem State.answerStartUp_testerAbility (d : CellNo) : (s.answerStartUp p r).testerAbility d = s.testerAbility d := rfl
@[simp] theorem State.answerStartUp_loadedProgram (d : CellNo) : (s.answerStartUp p r).loadedProgram d = s.loadedProgram d := rfl
@[simp] theorem State.answerStartUp_membersPresent (d : CellNo) : (s.answerStartUp p r).membersPresent d = s.membersPresent d := rfl
@[simp] theorem State.answerStartUp_inQueue (k : Id) : (s.answerStartUp p r).inQueue k = s.inQueue k := rfl
@[simp] theorem State.answerStartUp_shipment (k : Id) : (s.answerStartUp p r).shipment k = s.shipment k := rfl
@[simp] theorem State.answerStartUp_offeredCount : (s.answerStartUp p r).offeredCount = s.offeredCount := rfl
end answerStartUp

section ncel
variable (s : State) (c : CellNo)
@[simp] theorem State.ncel_equipment : (s.ncel c).equipment = s.equipment := rfl
@[simp] theorem State.ncel_cells : (s.ncel c).cells = s.cells := rfl
@[simp] theorem State.ncel_lots : (s.ncel c).lots = s.lots := rfl
@[simp] theorem State.ncel_sequence : (s.ncel c).sequence = s.sequence := rfl
@[simp] theorem State.ncel_queue : (s.ncel c).queue = s.queue := rfl
@[simp] theorem State.ncel_holds : (s.ncel c).holds = s.holds := rfl
@[simp] theorem State.ncel_shipments : (s.ncel c).shipments = s.shipments := rfl
@[simp] theorem State.ncel_armed : (s.ncel c).armed = s.armed := rfl
@[simp] theorem State.ncel_clock : (s.ncel c).clock = s.clock := rfl
@[simp] theorem State.ncel_tables : (s.ncel c).tables = s.tables := rfl
@[simp] theorem State.ncel_configState : (s.ncel c).configState = s.configState := rfl
@[simp] theorem State.ncel_storeJob : (s.ncel c).storeJob = s.storeJob := rfl
@[simp] theorem State.ncel_store : (s.ncel c).store = s.store := rfl
@[simp] theorem State.ncel_due : (s.ncel c).due = s.due := rfl
@[simp] theorem State.ncel_pending : (s.ncel c).pending = s.pending := rfl
@[simp] theorem State.ncel_cell (d : CellNo) : (s.ncel c).cell d = s.cell d := rfl
@[simp] theorem State.ncel_entry (j : Position) : (s.ncel c).entry j = s.entry j := rfl
@[simp] theorem State.ncel_lot (k : Id) : (s.ncel c).lot k = s.lot k := rfl
@[simp] theorem State.ncel_product (l : Lot) : (s.ncel c).product l = s.product l := rfl
@[simp] theorem State.ncel_planOf (l : Lot) : (s.ncel c).planOf l = s.planOf l := rfl
@[simp] theorem State.ncel_boundLot (d : CellNo) : (s.ncel c).boundLot d = s.boundLot d := rfl
@[simp] theorem State.ncel_lotUnheld (k : Id) : (s.ncel c).lotUnheld k = s.lotUnheld k := rfl
@[simp] theorem State.ncel_find (k : Id) : (s.ncel c).find k = s.find k := rfl
@[simp] theorem State.ncel_equip (k : Id) : (s.ncel c).equip k = s.equip k := rfl
@[simp] theorem State.ncel_isPresent (k : Id) : (s.ncel c).isPresent k = s.isPresent k := rfl
@[simp] theorem State.ncel_portCount (q : Port) : (s.ncel c).portCount q = s.portCount q := rfl
@[simp] theorem State.ncel_handlerAbility (d : CellNo) : (s.ncel c).handlerAbility d = s.handlerAbility d := rfl
@[simp] theorem State.ncel_testerAbility (d : CellNo) : (s.ncel c).testerAbility d = s.testerAbility d := rfl
@[simp] theorem State.ncel_loadedProgram (d : CellNo) : (s.ncel c).loadedProgram d = s.loadedProgram d := rfl
@[simp] theorem State.ncel_membersPresent (d : CellNo) : (s.ncel c).membersPresent d = s.membersPresent d := rfl
@[simp] theorem State.ncel_inQueue (k : Id) : (s.ncel c).inQueue k = s.inQueue k := rfl
@[simp] theorem State.ncel_shipment (k : Id) : (s.ncel c).shipment k = s.shipment k := rfl
@[simp] theorem State.ncel_offeredCount : (s.ncel c).offeredCount = s.offeredCount := rfl
end ncel

section setCell
variable (s : State) (c : CellNo) (x : Cell)
@[simp] theorem State.setCell_ports : (s.setCell c x).ports = s.ports := rfl
@[simp] theorem State.setCell_equipment : (s.setCell c x).equipment = s.equipment := rfl
@[simp] theorem State.setCell_lots : (s.setCell c x).lots = s.lots := rfl
@[simp] theorem State.setCell_sequence : (s.setCell c x).sequence = s.sequence := rfl
@[simp] theorem State.setCell_queue : (s.setCell c x).queue = s.queue := rfl
@[simp] theorem State.setCell_holds : (s.setCell c x).holds = s.holds := rfl
@[simp] theorem State.setCell_shipments : (s.setCell c x).shipments = s.shipments := rfl
@[simp] theorem State.setCell_armed : (s.setCell c x).armed = s.armed := rfl
@[simp] theorem State.setCell_clock : (s.setCell c x).clock = s.clock := rfl
@[simp] theorem State.setCell_tables : (s.setCell c x).tables = s.tables := rfl
@[simp] theorem State.setCell_configState : (s.setCell c x).configState = s.configState := rfl
@[simp] theorem State.setCell_storeJob : (s.setCell c x).storeJob = s.storeJob := rfl
@[simp] theorem State.setCell_store : (s.setCell c x).store = s.store := rfl
@[simp] theorem State.setCell_due : (s.setCell c x).due = s.due := rfl
@[simp] theorem State.setCell_pending : (s.setCell c x).pending = s.pending := rfl
@[simp] theorem State.setCell_port (q : Port) : (s.setCell c x).port q = s.port q := rfl
@[simp] theorem State.setCell_entry (j : Position) : (s.setCell c x).entry j = s.entry j := rfl
@[simp] theorem State.setCell_lot (k : Id) : (s.setCell c x).lot k = s.lot k := rfl
@[simp] theorem State.setCell_product (l : Lot) : (s.setCell c x).product l = s.product l := rfl
@[simp] theorem State.setCell_planOf (l : Lot) : (s.setCell c x).planOf l = s.planOf l := rfl
@[simp] theorem State.setCell_lotUnheld (k : Id) : (s.setCell c x).lotUnheld k = s.lotUnheld k := rfl
@[simp] theorem State.setCell_find (k : Id) : (s.setCell c x).find k = s.find k := rfl
@[simp] theorem State.setCell_equip (k : Id) : (s.setCell c x).equip k = s.equip k := rfl
@[simp] theorem State.setCell_isPresent (k : Id) : (s.setCell c x).isPresent k = s.isPresent k := rfl
@[simp] theorem State.setCell_portCount (q : Port) : (s.setCell c x).portCount q = s.portCount q := rfl
@[simp] theorem State.setCell_inQueue (k : Id) : (s.setCell c x).inQueue k = s.inQueue k := rfl
@[simp] theorem State.setCell_shipment (k : Id) : (s.setCell c x).shipment k = s.shipment k := rfl
@[simp] theorem State.setCell_offeredCount : (s.setCell c x).offeredCount = s.offeredCount := rfl
end setCell

section onCell
variable (s : State) (c : CellNo) (f : Cell → Cell)
@[simp] theorem State.onCell_ports : (s.onCell c f).ports = s.ports := rfl
@[simp] theorem State.onCell_equipment : (s.onCell c f).equipment = s.equipment := rfl
@[simp] theorem State.onCell_lots : (s.onCell c f).lots = s.lots := rfl
@[simp] theorem State.onCell_sequence : (s.onCell c f).sequence = s.sequence := rfl
@[simp] theorem State.onCell_queue : (s.onCell c f).queue = s.queue := rfl
@[simp] theorem State.onCell_holds : (s.onCell c f).holds = s.holds := rfl
@[simp] theorem State.onCell_shipments : (s.onCell c f).shipments = s.shipments := rfl
@[simp] theorem State.onCell_armed : (s.onCell c f).armed = s.armed := rfl
@[simp] theorem State.onCell_clock : (s.onCell c f).clock = s.clock := rfl
@[simp] theorem State.onCell_tables : (s.onCell c f).tables = s.tables := rfl
@[simp] theorem State.onCell_configState : (s.onCell c f).configState = s.configState := rfl
@[simp] theorem State.onCell_storeJob : (s.onCell c f).storeJob = s.storeJob := rfl
@[simp] theorem State.onCell_store : (s.onCell c f).store = s.store := rfl
@[simp] theorem State.onCell_due : (s.onCell c f).due = s.due := rfl
@[simp] theorem State.onCell_pending : (s.onCell c f).pending = s.pending := rfl
@[simp] theorem State.onCell_port (q : Port) : (s.onCell c f).port q = s.port q := rfl
@[simp] theorem State.onCell_entry (j : Position) : (s.onCell c f).entry j = s.entry j := rfl
@[simp] theorem State.onCell_lot (k : Id) : (s.onCell c f).lot k = s.lot k := rfl
@[simp] theorem State.onCell_product (l : Lot) : (s.onCell c f).product l = s.product l := rfl
@[simp] theorem State.onCell_planOf (l : Lot) : (s.onCell c f).planOf l = s.planOf l := rfl
@[simp] theorem State.onCell_lotUnheld (k : Id) : (s.onCell c f).lotUnheld k = s.lotUnheld k := rfl
@[simp] theorem State.onCell_find (k : Id) : (s.onCell c f).find k = s.find k := rfl
@[simp] theorem State.onCell_equip (k : Id) : (s.onCell c f).equip k = s.equip k := rfl
@[simp] theorem State.onCell_isPresent (k : Id) : (s.onCell c f).isPresent k = s.isPresent k := rfl
@[simp] theorem State.onCell_portCount (q : Port) : (s.onCell c f).portCount q = s.portCount q := rfl
@[simp] theorem State.onCell_inQueue (k : Id) : (s.onCell c f).inQueue k = s.inQueue k := rfl
@[simp] theorem State.onCell_shipment (k : Id) : (s.onCell c f).shipment k = s.shipment k := rfl
@[simp] theorem State.onCell_offeredCount : (s.onCell c f).offeredCount = s.offeredCount := rfl
end onCell

section moveCell
variable (s : State) (c : CellNo) (f : Cell → Cell)
@[simp] theorem State.moveCell_equipment : (s.moveCell c f).equipment = s.equipment := rfl
@[simp] theorem State.moveCell_lots : (s.moveCell c f).lots = s.lots := rfl
@[simp] theorem State.moveCell_sequence : (s.moveCell c f).sequence = s.sequence := rfl
@[simp] theorem State.moveCell_queue : (s.moveCell c f).queue = s.queue := rfl
@[simp] theorem State.moveCell_holds : (s.moveCell c f).holds = s.holds := rfl
@[simp] theorem State.moveCell_shipments : (s.moveCell c f).shipments = s.shipments := rfl
@[simp] theorem State.moveCell_armed : (s.moveCell c f).armed = s.armed := rfl
@[simp] theorem State.moveCell_clock : (s.moveCell c f).clock = s.clock := rfl
@[simp] theorem State.moveCell_tables : (s.moveCell c f).tables = s.tables := rfl
@[simp] theorem State.moveCell_configState : (s.moveCell c f).configState = s.configState := rfl
@[simp] theorem State.moveCell_storeJob : (s.moveCell c f).storeJob = s.storeJob := rfl
@[simp] theorem State.moveCell_store : (s.moveCell c f).store = s.store := rfl
@[simp] theorem State.moveCell_due : (s.moveCell c f).due = s.due := rfl
@[simp] theorem State.moveCell_pending : (s.moveCell c f).pending = s.pending := rfl
@[simp] theorem State.moveCell_entry (j : Position) : (s.moveCell c f).entry j = s.entry j := rfl
@[simp] theorem State.moveCell_lot (k : Id) : (s.moveCell c f).lot k = s.lot k := rfl
@[simp] theorem State.moveCell_product (l : Lot) : (s.moveCell c f).product l = s.product l := rfl
@[simp] theorem State.moveCell_planOf (l : Lot) : (s.moveCell c f).planOf l = s.planOf l := rfl
@[simp] theorem State.moveCell_lotUnheld (k : Id) : (s.moveCell c f).lotUnheld k = s.lotUnheld k := rfl
@[simp] theorem State.moveCell_find (k : Id) : (s.moveCell c f).find k = s.find k := rfl
@[simp] theorem State.moveCell_equip (k : Id) : (s.moveCell c f).equip k = s.equip k := rfl
@[simp] theorem State.moveCell_isPresent (k : Id) : (s.moveCell c f).isPresent k = s.isPresent k := rfl
@[simp] theorem State.moveCell_portCount (q : Port) : (s.moveCell c f).portCount q = s.portCount q := rfl
@[simp] theorem State.moveCell_inQueue (k : Id) : (s.moveCell c f).inQueue k = s.inQueue k := rfl
@[simp] theorem State.moveCell_shipment (k : Id) : (s.moveCell c f).shipment k = s.shipment k := rfl
@[simp] theorem State.moveCell_offeredCount : (s.moveCell c f).offeredCount = s.offeredCount := rfl
end moveCell

section setEntry
variable (s : State) (i : Position) (e : Option Entry)
@[simp] theorem State.setEntry_ports : (s.setEntry i e).ports = s.ports := rfl
@[simp] theorem State.setEntry_cells : (s.setEntry i e).cells = s.cells := rfl
@[simp] theorem State.setEntry_lots : (s.setEntry i e).lots = s.lots := rfl
@[simp] theorem State.setEntry_sequence : (s.setEntry i e).sequence = s.sequence := rfl
@[simp] theorem State.setEntry_queue : (s.setEntry i e).queue = s.queue := rfl
@[simp] theorem State.setEntry_holds : (s.setEntry i e).holds = s.holds := rfl
@[simp] theorem State.setEntry_shipments : (s.setEntry i e).shipments = s.shipments := rfl
@[simp] theorem State.setEntry_armed : (s.setEntry i e).armed = s.armed := rfl
@[simp] theorem State.setEntry_clock : (s.setEntry i e).clock = s.clock := rfl
@[simp] theorem State.setEntry_tables : (s.setEntry i e).tables = s.tables := rfl
@[simp] theorem State.setEntry_configState : (s.setEntry i e).configState = s.configState := rfl
@[simp] theorem State.setEntry_storeJob : (s.setEntry i e).storeJob = s.storeJob := rfl
@[simp] theorem State.setEntry_store : (s.setEntry i e).store = s.store := rfl
@[simp] theorem State.setEntry_due : (s.setEntry i e).due = s.due := rfl
@[simp] theorem State.setEntry_pending : (s.setEntry i e).pending = s.pending := rfl
@[simp] theorem State.setEntry_port (q : Port) : (s.setEntry i e).port q = s.port q := rfl
@[simp] theorem State.setEntry_cell (d : CellNo) : (s.setEntry i e).cell d = s.cell d := rfl
@[simp] theorem State.setEntry_lot (k : Id) : (s.setEntry i e).lot k = s.lot k := rfl
@[simp] theorem State.setEntry_product (l : Lot) : (s.setEntry i e).product l = s.product l := rfl
@[simp] theorem State.setEntry_planOf (l : Lot) : (s.setEntry i e).planOf l = s.planOf l := rfl
@[simp] theorem State.setEntry_boundLot (d : CellNo) : (s.setEntry i e).boundLot d = s.boundLot d := rfl
@[simp] theorem State.setEntry_lotUnheld (k : Id) : (s.setEntry i e).lotUnheld k = s.lotUnheld k := rfl
@[simp] theorem State.setEntry_inQueue (k : Id) : (s.setEntry i e).inQueue k = s.inQueue k := rfl
@[simp] theorem State.setEntry_shipment (k : Id) : (s.setEntry i e).shipment k = s.shipment k := rfl
@[simp] theorem State.setEntry_offeredCount : (s.setEntry i e).offeredCount = s.offeredCount := rfl
end setEntry

section onLot
variable (s : State) (id : Id) (f : Lot → Lot)
@[simp] theorem State.onLot_ports : (s.onLot id f).ports = s.ports := rfl
@[simp] theorem State.onLot_equipment : (s.onLot id f).equipment = s.equipment := rfl
@[simp] theorem State.onLot_cells : (s.onLot id f).cells = s.cells := rfl
@[simp] theorem State.onLot_sequence : (s.onLot id f).sequence = s.sequence := rfl
@[simp] theorem State.onLot_queue : (s.onLot id f).queue = s.queue := rfl
@[simp] theorem State.onLot_holds : (s.onLot id f).holds = s.holds := rfl
@[simp] theorem State.onLot_shipments : (s.onLot id f).shipments = s.shipments := rfl
@[simp] theorem State.onLot_armed : (s.onLot id f).armed = s.armed := rfl
@[simp] theorem State.onLot_clock : (s.onLot id f).clock = s.clock := rfl
@[simp] theorem State.onLot_tables : (s.onLot id f).tables = s.tables := rfl
@[simp] theorem State.onLot_configState : (s.onLot id f).configState = s.configState := rfl
@[simp] theorem State.onLot_storeJob : (s.onLot id f).storeJob = s.storeJob := rfl
@[simp] theorem State.onLot_store : (s.onLot id f).store = s.store := rfl
@[simp] theorem State.onLot_due : (s.onLot id f).due = s.due := rfl
@[simp] theorem State.onLot_pending : (s.onLot id f).pending = s.pending := rfl
@[simp] theorem State.onLot_port (q : Port) : (s.onLot id f).port q = s.port q := rfl
@[simp] theorem State.onLot_cell (d : CellNo) : (s.onLot id f).cell d = s.cell d := rfl
@[simp] theorem State.onLot_entry (j : Position) : (s.onLot id f).entry j = s.entry j := rfl
@[simp] theorem State.onLot_product (l : Lot) : (s.onLot id f).product l = s.product l := rfl
@[simp] theorem State.onLot_planOf (l : Lot) : (s.onLot id f).planOf l = s.planOf l := rfl
@[simp] theorem State.onLot_find (k : Id) : (s.onLot id f).find k = s.find k := rfl
@[simp] theorem State.onLot_equip (k : Id) : (s.onLot id f).equip k = s.equip k := rfl
@[simp] theorem State.onLot_isPresent (k : Id) : (s.onLot id f).isPresent k = s.isPresent k := rfl
@[simp] theorem State.onLot_portCount (q : Port) : (s.onLot id f).portCount q = s.portCount q := rfl
@[simp] theorem State.onLot_handlerAbility (d : CellNo) : (s.onLot id f).handlerAbility d = s.handlerAbility d := rfl
@[simp] theorem State.onLot_testerAbility (d : CellNo) : (s.onLot id f).testerAbility d = s.testerAbility d := rfl
@[simp] theorem State.onLot_loadedProgram (d : CellNo) : (s.onLot id f).loadedProgram d = s.loadedProgram d := rfl
@[simp] theorem State.onLot_membersPresent (d : CellNo) : (s.onLot id f).membersPresent d = s.membersPresent d := rfl
@[simp] theorem State.onLot_inQueue (k : Id) : (s.onLot id f).inQueue k = s.inQueue k := rfl
@[simp] theorem State.onLot_shipment (k : Id) : (s.onLot id f).shipment k = s.shipment k := rfl
@[simp] theorem State.onLot_offeredCount : (s.onLot id f).offeredCount = s.offeredCount := rfl
end onLot

section leaveQueue
variable (s : State) (id : Id)
@[simp] theorem State.leaveQueue_ports : (s.leaveQueue id).ports = s.ports := rfl
@[simp] theorem State.leaveQueue_equipment : (s.leaveQueue id).equipment = s.equipment := rfl
@[simp] theorem State.leaveQueue_cells : (s.leaveQueue id).cells = s.cells := rfl
@[simp] theorem State.leaveQueue_lots : (s.leaveQueue id).lots = s.lots := rfl
@[simp] theorem State.leaveQueue_sequence : (s.leaveQueue id).sequence = s.sequence := rfl
@[simp] theorem State.leaveQueue_holds : (s.leaveQueue id).holds = s.holds := rfl
@[simp] theorem State.leaveQueue_shipments : (s.leaveQueue id).shipments = s.shipments := rfl
@[simp] theorem State.leaveQueue_armed : (s.leaveQueue id).armed = s.armed := rfl
@[simp] theorem State.leaveQueue_clock : (s.leaveQueue id).clock = s.clock := rfl
@[simp] theorem State.leaveQueue_tables : (s.leaveQueue id).tables = s.tables := rfl
@[simp] theorem State.leaveQueue_configState : (s.leaveQueue id).configState = s.configState := rfl
@[simp] theorem State.leaveQueue_storeJob : (s.leaveQueue id).storeJob = s.storeJob := rfl
@[simp] theorem State.leaveQueue_store : (s.leaveQueue id).store = s.store := rfl
@[simp] theorem State.leaveQueue_due : (s.leaveQueue id).due = s.due := rfl
@[simp] theorem State.leaveQueue_pending : (s.leaveQueue id).pending = s.pending := rfl
@[simp] theorem State.leaveQueue_port (q : Port) : (s.leaveQueue id).port q = s.port q := rfl
@[simp] theorem State.leaveQueue_cell (d : CellNo) : (s.leaveQueue id).cell d = s.cell d := rfl
@[simp] theorem State.leaveQueue_entry (j : Position) : (s.leaveQueue id).entry j = s.entry j := rfl
@[simp] theorem State.leaveQueue_lot (k : Id) : (s.leaveQueue id).lot k = s.lot k := rfl
@[simp] theorem State.leaveQueue_product (l : Lot) : (s.leaveQueue id).product l = s.product l := rfl
@[simp] theorem State.leaveQueue_planOf (l : Lot) : (s.leaveQueue id).planOf l = s.planOf l := rfl
@[simp] theorem State.leaveQueue_boundLot (d : CellNo) : (s.leaveQueue id).boundLot d = s.boundLot d := rfl
@[simp] theorem State.leaveQueue_lotUnheld (k : Id) : (s.leaveQueue id).lotUnheld k = s.lotUnheld k := rfl
@[simp] theorem State.leaveQueue_find (k : Id) : (s.leaveQueue id).find k = s.find k := rfl
@[simp] theorem State.leaveQueue_equip (k : Id) : (s.leaveQueue id).equip k = s.equip k := rfl
@[simp] theorem State.leaveQueue_isPresent (k : Id) : (s.leaveQueue id).isPresent k = s.isPresent k := rfl
@[simp] theorem State.leaveQueue_portCount (q : Port) : (s.leaveQueue id).portCount q = s.portCount q := rfl
@[simp] theorem State.leaveQueue_handlerAbility (d : CellNo) : (s.leaveQueue id).handlerAbility d = s.handlerAbility d := rfl
@[simp] theorem State.leaveQueue_testerAbility (d : CellNo) : (s.leaveQueue id).testerAbility d = s.testerAbility d := rfl
@[simp] theorem State.leaveQueue_loadedProgram (d : CellNo) : (s.leaveQueue id).loadedProgram d = s.loadedProgram d := rfl
@[simp] theorem State.leaveQueue_membersPresent (d : CellNo) : (s.leaveQueue id).membersPresent d = s.membersPresent d := rfl
@[simp] theorem State.leaveQueue_shipment (k : Id) : (s.leaveQueue id).shipment k = s.shipment k := rfl
@[simp] theorem State.leaveQueue_offeredCount : (s.leaveQueue id).offeredCount = s.offeredCount := rfl
end leaveQueue

/-! ## What an update writes -/

@[simp] theorem State.setPort_port_same (s : State) (p : Port) (u : PortUnit) : (s.setPort p u).port p = u := by
  simp [State.setPort, State.port]

@[simp] theorem State.setPort_port_ne (s : State) {p q : Port} (u : PortUnit) (h : q ≠ p) :
    (s.setPort p u).port q = s.port q := by
  have : p.val ≠ q.val := fun e => h (Fin.ext e.symm)
  simp [State.setPort, State.port, Vector.getElem_set_ne, this]

@[simp] theorem State.setPort_self (s : State) (p : Port) : s.setPort p (s.port p) = s := by
  simp [State.setPort, State.port]

@[simp] theorem State.setPort_setPort (s : State) (p : Port) (u v : PortUnit) :
    (s.setPort p u).setPort p v = s.setPort p v := by
  simp [State.setPort]

@[simp] theorem State.setCell_cell_same (s : State) (c : CellNo) (x : Cell) : (s.setCell c x).cell c = x := by
  simp [State.setCell, State.cell]

@[simp] theorem State.setCell_cell_ne (s : State) {c d : CellNo} (x : Cell) (h : d ≠ c) :
    (s.setCell c x).cell d = s.cell d := by
  have : c.val ≠ d.val := fun e => h (Fin.ext e.symm)
  simp [State.setCell, State.cell, Vector.getElem_set_ne, this]

@[simp] theorem State.setCell_self (s : State) (c : CellNo) : s.setCell c (s.cell c) = s := by
  simp [State.setCell, State.cell]

@[simp] theorem State.setCell_setCell (s : State) (c : CellNo) (x y : Cell) :
    (s.setCell c x).setCell c y = s.setCell c y := by
  simp [State.setCell]

theorem State.onCell_eq (s : State) (c : CellNo) (f : Cell → Cell) : s.onCell c f = s.setCell c (f (s.cell c)) :=
  rfl

theorem State.moveCell_eq (s : State) (c : CellNo) (f : Cell → Cell) :
    s.moveCell c f = (s.setCell c (f (s.cell c))).ncel c := rfl

@[simp] theorem State.setEntry_entry_same (s : State) (i : Position) (e : Option Entry) :
    (s.setEntry i e).entry i = e := by
  simp [State.setEntry, State.entry]

@[simp] theorem State.setEntry_entry_ne (s : State) {i j : Position} (e : Option Entry) (h : j ≠ i) :
    (s.setEntry i e).entry j = s.entry j := by
  have : i.val ≠ j.val := fun e => h (Fin.ext e.symm)
  simp [State.setEntry, State.entry, Vector.getElem_set_ne, this]

@[simp] theorem State.setEntry_setEntry (s : State) (i : Position) (e f : Option Entry) :
    (s.setEntry i e).setEntry i f = s.setEntry i f := by
  simp [State.setEntry]

/-- The lot found has the id that was looked for. -/
theorem State.lot_id (s : State) {id : Id} {l : Lot} (h : s.lot id = some l) : l.id = id := by
  simpa using List.find?_some h

/-- A lot of this id, changed, is the one found. -/
theorem State.onLot_lot_same (s : State) {id : Id} {l : Lot} (f : Lot → Lot) (h : s.lot id = some l)
    (keep : ∀ x, (f x).id = x.id) : (s.onLot id f).lot id = some (f l) := by
  have hid := s.lot_id h
  have test : ((fun l : Lot => decide (l.id = id)) ∘ fun l => if l.id = id then f l else l)
      = fun l => decide (l.id = id) := by
    funext x
    by_cases hx : x.id = id <;> simp [hx, keep]
  unfold State.lot at h
  simp only [State.lot, State.onLot, List.find?_map, test, h, Option.map_some, hid, if_true]

/-- The lots of other ids are found as they were. -/
theorem State.onLot_lot_ne (s : State) {id k : Id} (f : Lot → Lot) (h : k ≠ id) (keep : ∀ x, (f x).id = x.id) :
    (s.onLot id f).lot k = s.lot k := by
  unfold State.lot State.onLot
  induction s.lots with
  | nil => rfl
  | cons x xs ih =>
    by_cases hx : x.id = id
    · have : x.id ≠ k := fun e => h (e ▸ hx)
      have hk : id ≠ k := fun e => h e.symm
      simp_all
    · by_cases hk : x.id = k <;> simp_all

/-- Two changes of the lots of one id are one. -/
theorem State.onLot_onLot (s : State) (id : Id) (f g : Lot → Lot) (keep : ∀ x, (f x).id = x.id) :
    (s.onLot id f).onLot id g = s.onLot id fun l => g (f l) := by
  have : (s.lots.map fun l => if l.id = id then f l else l).map (fun l => if l.id = id then g l else l)
      = s.lots.map fun l => if l.id = id then g (f l) else l := by
    rw [List.map_map]
    apply List.map_congr_left
    intro l _
    by_cases h : l.id = id <;> simp [h, keep]
  simp [State.onLot, this]

/-! ## The end of a start-up load at the ports (R184) -/

/-- Every port unit is what the change makes of it. -/
@[simp] theorem State.port_onPorts (s : State) (f : PortUnit → PortUnit) (p : Port) :
    (s.onPorts f).port p = f (s.port p) := by
  simp [State.onPorts, State.port]

section loadEnds
variable (u : PortUnit)
@[simp] theorem PortUnit.loadEnds_receiver : u.loadEnds.receiver = u.receiver := rfl
@[simp] theorem PortUnit.loadEnds_intake : u.loadEnds.intake = u.intake := rfl
@[simp] theorem PortUnit.loadEnds_sense : u.loadEnds.sense = u.sense := rfl
@[simp] theorem PortUnit.loadEnds_holdOff : u.loadEnds.holdOff = u.holdOff := rfl
@[simp] theorem PortUnit.loadEnds_flow : u.loadEnds.flow = u.flow := rfl
@[simp] theorem PortUnit.loadEnds_sending : u.loadEnds.sending = u.sending := rfl
@[simp] theorem PortUnit.loadEnds_unsent : u.loadEnds.unsent = u.unsent := rfl
@[simp] theorem PortUnit.loadEnds_line : u.loadEnds.line = u.line := rfl
@[simp] theorem PortUnit.loadEnds_overrunLatch : u.loadEnds.overrunLatch = u.overrunLatch := rfl
@[simp] theorem PortUnit.loadEnds_noticeLost : u.loadEnds.noticeLost = u.noticeLost := rfl
@[simp] theorem PortUnit.loadEnds_crcErrors : u.loadEnds.crcErrors = u.crcErrors := rfl
@[simp] theorem PortUnit.loadEnds_gapAborts : u.loadEnds.gapAborts = u.gapAborts := rfl
@[simp] theorem PortUnit.loadEnds_overruns : u.loadEnds.overruns = u.overruns := rfl

/-- The service slot keeps its request and depth; only one not examined yet is marked. -/
theorem PortUnit.loadEnds_service : u.loadEnds.service =
    u.service.map fun v : Service => if v.progress = .taken then { v with progress := .takenInLoad } else v := rfl
end loadEnds

end Sys2Proof.Machine
end

