-- ==== Sys2Proof/Laws/Equipment.lean ====
section
/-! SUPPORT. Looking up an equipment id, before and after an entry is changed. -/

namespace Sys2Proof.Machine

/-- The lookup's test of one position. -/
theorem State.find_eq (s : State) (id : Id) : s.find id = (List.finRange 48).findSome? fun i =>
    match s.entry i with
    | some e => if e.id = id then some (i, e) else none
    | none => none := rfl

/-- The entry found stands at the position found and has the id that was looked for. -/
theorem State.find_entry {s : State} {id : Id} {i : Position} {e : Entry} (h : s.find id = some (i, e)) :
    s.entry i = some e ∧ e.id = id := by
  obtain ⟨j, -, hj⟩ := List.exists_of_findSome?_eq_some h
  cases hs : s.entry j with
  | none => simp [hs] at hj
  | some f =>
    by_cases hf : f.id = id
    · simp [hs, hf] at hj
      obtain ⟨rfl, rfl⟩ := hj
      exact ⟨hs, hf⟩
    · simp [hs, hf] at hj

/-- Nothing is found exactly when no position holds the id. -/
theorem State.find_none {s : State} {id : Id} :
    s.find id = none ↔ ∀ i e, s.entry i = some e → e.id ≠ id := by
  rw [State.find_eq, List.findSome?_eq_none_iff]
  constructor
  · intro h i e he hid
    have := h i (List.mem_finRange i)
    simp [he, hid] at this
  · intro h i _
    cases hs : s.entry i with
    | none => rfl
    | some e => simp [h i e hs]

/-- An entry that is known is found through its id by `equip`. -/
theorem State.equip_of_find {s : State} {id : Id} {i : Position} {e : Entry} (h : s.find id = some (i, e)) :
    s.equip id = some e := by
  simp [State.equip, h]

/-- An entry that keeps its id is found where it was, changed. -/
theorem State.find_setEntry {s : State} {id : Id} {i : Position} {e f : Entry} (h : s.find id = some (i, e))
    (hf : f.id = id) : (s.setEntry i (some f)).find id = some (i, f) := by
  have hi := State.find_entry h
  rw [State.find_eq] at h ⊢
  generalize List.finRange 48 = ps at h
  induction ps with
  | nil => simp at h
  | cons p ps ih =>
    by_cases hp : p = i
    · subst hp
      simp [hf]
    · simp only [List.findSome?_cons, State.setEntry_entry_ne s (some f) hp] at h ⊢
      cases hs : s.entry p with
      | none => simp only [hs] at h ⊢; exact ih h
      | some g =>
        simp only [hs] at h ⊢
        by_cases hg : g.id = id
        · simp [hg] at h
          exact absurd h.1 hp
        · simp only [hg, if_false] at h ⊢
          exact ih h

/-- A change of one entry that keeps its id leaves the lookup of every other id as it was. -/
theorem State.find_setEntry_ne {s : State} {id : Id} {i : Position} {e f : Entry} (h : s.entry i = some e)
    (hf : f.id = e.id) (hne : e.id ≠ id) : (s.setEntry i (some f)).find id = s.find id := by
  rw [State.find_eq, State.find_eq]
  congr 1
  funext p
  by_cases hp : p = i
  · subst hp
    simp [h, hf, hne]
  · rw [State.setEntry_entry_ne s (some f) hp]

/-- `onEquip` changes the entry where it stands. -/
theorem State.onEquip_of_find {s : State} {id : Id} {i : Position} {e : Entry} (f : Entry → Entry)
    (h : s.find id = some (i, e)) : s.onEquip id f = s.setEntry i (some (f e)) := by
  simp [State.onEquip, h]

end Sys2Proof.Machine
end

