-- ==== Sys2Proof/Laws/Readers.lean ====
section
/-! SUPPORT. What each field reader gives of a field as a partner writes it (R195): the value, and the place
behind it. -/

namespace Sys2Proof.Machine

@[simp] theorem be_length (k n : Nat) : (be k n).length = k := by
  induction k with
  | zero => rfl
  | succ k ih => simp [be, ih]

@[simp] theorem be32_length (v : BitVec 32) : (be32 v).length = 4 := by simp [be32]

@[simp] theorem temperature_length (t : Int) : (temperature t).length = 2 := by simp [temperature]

@[simp] theorem num1_length {n : Nat} (c : Fin n) : (num1 c).length = 1 := by simp [num1]

theorem ofBe_append (xs ys : List Byte) : ofBe (xs ++ ys) = ofBe xs * 256 ^ ys.length + ofBe ys := by
  have gen : ∀ (ys : List Byte) (n : Nat), ys.foldl (fun n b => n * 256 + b.toNat) n
      = n * 256 ^ ys.length + ofBe ys := by
    intro ys
    induction ys with
    | nil => intro n; simp [ofBe]
    | cons y ys ih =>
      intro n
      have := ih (n * 256 + y.toNat)
      have zero := ih (0 * 256 + y.toNat)
      simp only [List.foldl_cons, List.length_cons, ofBe] at *
      rw [this, zero]
      ring
  unfold ofBe
  rw [List.foldl_append, gen ys]
  rfl

/-- Bytes written most significant first carry the number they were written for. -/
theorem ofBe_be (k n : Nat) (h : n < 256 ^ k) : ofBe (be k n) = n := by
  have gen : ∀ k, ofBe (be k n) = n % 256 ^ k := by
    intro k
    induction k with
    | zero => simp [be, ofBe, Nat.mod_one]
    | succ k ih =>
      have cons : be (k + 1) n = [BitVec.ofNat 8 (n >>> (8 * k))] ++ be k n := rfl
      rw [cons, ofBe_append, ih, be_length]
      have shift : n >>> (8 * k) = n / 256 ^ k := by
        rw [Nat.shiftRight_eq_div_pow, pow_mul]
        norm_num
      have byte : ofBe [BitVec.ofNat 8 (n >>> (8 * k))] = n / 256 ^ k % 256 := by
        simp [ofBe, shift]
      rw [byte, pow_succ, Nat.mod_mul]
      ring
  rw [gen, Nat.mod_eq_of_lt h]

theorem Cursor.bytes_append (o : Nat) (xs rest : List Byte) :
    (⟨o, xs ++ rest⟩ : Cursor).bytes xs.length = .ok (xs, ⟨o + xs.length, rest⟩) := by
  simp [Cursor.bytes]

/-- A number within its range is read as written. -/
theorem Cursor.num_be {k n lo hi : Nat} (o : Nat) (rest : List Byte) (fits : n < 256 ^ k) (low : lo ≤ n)
    (high : n ≤ hi) : (⟨o, be k n ++ rest⟩ : Cursor).num k lo hi = .ok (n, ⟨o + k, rest⟩) := by
  have := Cursor.bytes_append o (be k n) rest
  rw [be_length] at this
  simp [Cursor.num, this, ofBe_be k n fits, low, high, bind, Except.bind]

/-- A number out of its range is refused with its offset. -/
theorem Cursor.num_be_out {k n lo hi : Nat} (o : Nat) (rest : List Byte) (fits : n < 256 ^ k)
    (out : ¬(lo ≤ n ∧ n ≤ hi)) : (⟨o, be k n ++ rest⟩ : Cursor).num k lo hi = .error o := by
  have := Cursor.bytes_append o (be k n) rest
  rw [be_length] at this
  simp only [Cursor.num, this, ofBe_be k n fits, bind, Except.bind, if_neg out]

/-- A 32-bit number is read as written. -/
theorem Cursor.id_be32 {lo : Nat} (o : Nat) (v : Id) (rest : List Byte) (low : lo ≤ v.toNat) :
    (⟨o, be32 v ++ rest⟩ : Cursor).id lo = .ok (v, ⟨o + 4, rest⟩) := by
  have bound : v.toNat < 256 ^ 4 := by have := v.isLt; norm_num at this ⊢; omega
  have := Cursor.num_be (k := 4) (lo := lo) (hi := 2 ^ 32 - 1) o rest bound low (by omega)
  simp only [Cursor.id, be32, this, bind, Except.bind, BitVec.ofNat_toNat, BitVec.setWidth_eq]

/-- An id that must not be 0 is read as written. -/
theorem Cursor.id_be32_one (o : Nat) {v : Id} (rest : List Byte) (h : v ≠ 0) :
    (⟨o, be32 v ++ rest⟩ : Cursor).id 1 = .ok (v, ⟨o + 4, rest⟩) := by
  apply Cursor.id_be32
  have : v.toNat ≠ 0 := fun e => h (by apply BitVec.eq_of_toNat_eq; simpa using e)
  omega

/-- A one-byte number below its bound is read as written. -/
theorem Cursor.below_num1 {n : Nat} (o : Nat) (c : Fin n) (rest : List Byte) (small : n ≤ 256) :
    (⟨o, num1 c ++ rest⟩ : Cursor).below n = .ok (c, ⟨o + 1, rest⟩) := by
  have := Cursor.bytes_append o (be 1 c.val) rest
  rw [be_length] at this
  have fits : c.val < 256 ^ 1 := by have := c.isLt; omega
  simp [Cursor.below, num1, this, ofBe_be 1 c.val fits, bind, Except.bind, c.isLt]

/-- A byte is read through its table of values. -/
theorem Cursor.pick_cons {α : Type} {read : Byte → Option α} {a : α} {b : Byte} (o : Nat) (rest : List Byte)
    (h : read b = some a) : (⟨o, b :: rest⟩ : Cursor).pick read = .ok (a, ⟨o + 1, rest⟩) := by
  have fits : b.toNat < 256 ^ 1 := by have := b.isLt; omega
  have one : be 1 b.toNat = [b] := by simp [be]
  have := Cursor.num_be (k := 1) (lo := 0) (hi := 255) o rest fits (by omega) (by omega)
  rw [one] at this
  simp only [List.singleton_append] at this
  simp [Cursor.pick, this, bind, Except.bind, h]

/-- A temperature within its range is read as written. -/
theorem Cursor.temp_temperature {lo hi t : Int} (o : Nat) (rest : List Byte) (low : lo ≤ t) (high : t ≤ hi)
    (least : -32768 ≤ t) (most : t ≤ 32767) :
    (⟨o, temperature t ++ rest⟩ : Cursor).temp lo hi = .ok (t, ⟨o + 2, rest⟩) := by
  have bound := (BitVec.ofInt 16 t).isLt
  have := Cursor.num_be (k := 2) (lo := 0) (hi := 65535) o rest
    (n := (BitVec.ofInt 16 t).toNat) (by norm_num at bound ⊢; omega) (by omega) (by norm_num at bound; omega)
  have back : (BitVec.ofInt 16 t).toInt = t := by
    rw [BitVec.toInt_ofInt]
    apply Int.bmod_eq_of_le <;> norm_num <;> omega
  simp only [Cursor.temp, temperature, this, bind, Except.bind, BitVec.ofNat_toNat, BitVec.setWidth_eq, back,
    if_pos (And.intro low high)]

/-- A flag byte. -/
theorem Cursor.flag_flag (o : Nat) (b : Bool) (rest : List Byte) :
    (⟨o, Machine.flag b ++ rest⟩ : Cursor).flag = .ok (b, ⟨o + 1, rest⟩) := by
  cases b <;> exact Cursor.pick_cons o rest rfl

/-- An optional field that is absent, and one that is present. -/
theorem Cursor.opt_none {α : Type} (o : Nat) (rest : List Byte) (read : Cursor → Checked (α × Cursor)) :
    (⟨o, asked none ++ rest⟩ : Cursor).opt read = .ok (none, ⟨o + 1, rest⟩) := by
  have := Cursor.flag_flag o false rest
  simp only [Machine.flag, Bool.false_eq_true, if_false] at this
  simp [Cursor.opt, asked, bind, Except.bind] at this ⊢
  simp [this]

theorem Cursor.opt_some {α : Type} (o : Nat) (bytes rest : List Byte) (read : Cursor → Checked (α × Cursor)) :
    (⟨o, asked (some bytes) ++ rest⟩ : Cursor).opt read
      = (read ⟨o + 1, bytes ++ rest⟩).bind fun (a, c) => .ok (some a, c) := by
  have := Cursor.flag_flag o true (bytes ++ rest)
  simp only [Machine.flag, if_true] at this
  simp [Cursor.opt, asked, bind, Except.bind] at this ⊢
  simp [this]

/-- A payload that ends where its format does. -/
theorem Cursor.finish_nil {α : Type} (o : Nat) (a : α) : (⟨o, []⟩ : Cursor).finish a = .ok a := rfl

/-- Values written one after another are read one after another. -/
theorem Cursor.many_flatMap {α : Type} {read : Cursor → Checked (α × Cursor)} {write : α → List Byte}
    {ok : α → Prop}
    (one : ∀ o a rest, ok a → read ⟨o, write a ++ rest⟩ = .ok (a, ⟨o + (write a).length, rest⟩))
    (as : List α) (o : Nat) (rest : List Byte) (all : ∀ a ∈ as, ok a) :
    Cursor.many read as.length ⟨o, as.flatMap write ++ rest⟩
      = .ok (as, ⟨o + (as.flatMap write).length, rest⟩) := by
  induction as generalizing o with
  | nil => simp [Cursor.many]
  | cons a as ih =>
    have h1 := one o a (as.flatMap write ++ rest) (all a (by simp))
    have h2 := ih (o + (write a).length) (fun x hx => all x (by simp [hx]))
    simp only [List.length_cons, Cursor.many, List.flatMap_cons, List.append_assoc, h1, h2, bind, Except.bind]
    simp [Nat.add_assoc]

end Sys2Proof.Machine
end

