-- ==== Sys2Proof/Laws/Fields.lean ====
section
/-! SUPPORT. A field reader fails exactly where the format's check names an offence (R9): one lemma for each kind of
field, by which a whole reader is compared with its format field by field. -/

namespace Sys2Proof.Machine

/-- A reading succeeds when no offence is named, and else fails with the offset that is. -/
def Agrees {α : Type} (reading : Checked α) (offset : Option Nat) : Prop :=
  match reading with
  | .ok _ => offset = none
  | .error n => offset = some n

/-- Where a reading fails, that is the offence. -/
theorem Agrees.error {α : Type} {reading : Checked α} {n : Nat} (h : Agrees reading (some n)) :
    reading = .error n := by
  unfold Agrees at h
  split at h
  · cases h
  · cases h; rfl

/-- The end of a payload. -/
theorem Cursor.finish_agrees {α : Type} (c : Cursor) (a : α) : Agrees (c.finish a) (offence [] c.offset c.rest) := by
  unfold Cursor.finish offence Agrees
  cases c.rest <;> simp

/-- Any field: its reader succeeds exactly on the numbers allowed, and what is read behind it agrees. -/
theorem Cursor.field_agrees {α β : Type} {c : Cursor} {f : Field} {fs : List Field} {reading : Checked (α × Cursor)}
    {rest : α × Cursor → Checked β}
    (short : c.rest.length < f.size → reading = .error c.offset)
    (out : f.size ≤ c.rest.length → f.allowed (ofBe (c.rest.take f.size)) = false → reading = .error c.offset)
    (ok : f.size ≤ c.rest.length → f.allowed (ofBe (c.rest.take f.size)) = true →
      ∃ a, reading = .ok (a, ⟨c.offset + f.size, c.rest.drop f.size⟩)
        ∧ Agrees (rest (a, ⟨c.offset + f.size, c.rest.drop f.size⟩))
          (offence fs (c.offset + f.size) (c.rest.drop f.size))) :
    Agrees (reading >>= rest) (offence (f :: fs) c.offset c.rest) := by
  rw [offence]
  by_cases whole : f.size ≤ c.rest.length
  · cases allowed : f.allowed (ofBe (c.rest.take f.size))
    · simp [out whole allowed, Agrees, bind, Except.bind]
    · obtain ⟨a, h, agrees⟩ := ok whole allowed
      simpa [h, whole, bind, Except.bind] using agrees
  · simp [short (by omega), whole, Agrees, bind, Except.bind]

/-- What reading a number comes to. -/
theorem Cursor.num_eq (c : Cursor) (size lo hi : Nat) : c.num size lo hi =
    if size ≤ c.rest.length ∧ lo ≤ ofBe (c.rest.take size) ∧ ofBe (c.rest.take size) ≤ hi then
      .ok (ofBe (c.rest.take size), ⟨c.offset + size, c.rest.drop size⟩)
    else .error c.offset := by
  unfold Cursor.num Cursor.bytes
  by_cases short : c.rest.length < size
  · simp [short, bind, Except.bind, Nat.not_le.mpr short]
  · simp [short, bind, Except.bind, Nat.le_of_not_lt short]

theorem Cursor.num_agrees {β : Type} {c : Cursor} {size lo hi : Nat} {fs : List Field}
    {rest : Nat × Cursor → Checked β}
    (h : size ≤ c.rest.length → lo ≤ ofBe (c.rest.take size) → ofBe (c.rest.take size) ≤ hi →
      Agrees (rest (ofBe (c.rest.take size), ⟨c.offset + size, c.rest.drop size⟩))
        (offence fs (c.offset + size) (c.rest.drop size))) :
    Agrees (c.num size lo hi >>= rest) (offence (between size lo hi :: fs) c.offset c.rest) := by
  rw [Cursor.num_eq]
  refine Cursor.field_agrees ?_ ?_ ?_
  · intro short
    have : ¬size ≤ c.rest.length := Nat.not_le.mpr short
    simp [this]
  · intro whole out
    have : ¬(lo ≤ ofBe (c.rest.take size) ∧ ofBe (c.rest.take size) ≤ hi) := of_decide_eq_false out
    simp [this]
  · intro whole ok
    have : lo ≤ ofBe (c.rest.take size) ∧ ofBe (c.rest.take size) ≤ hi := of_decide_eq_true ok
    exact ⟨_, if_pos ⟨whole, this⟩, h whole this.1 this.2⟩

/-- Bytes spell a number below a power of 256. -/
theorem ofBe_lt (xs : List Byte) : ofBe xs < 256 ^ xs.length := by
  induction xs using List.reverseRecOn with
  | nil => simp [ofBe]
  | append_singleton xs b ih =>
    have byte : ofBe [b] < 256 := by simpa [ofBe] using b.isLt
    rw [ofBe_append, List.length_append, List.length_singleton, pow_one, pow_succ]
    omega

/-- A number whose every value is in range. -/
theorem Cursor.num_agrees_free {β : Type} {c : Cursor} {size hi : Nat} {fs : List Field}
    {rest : Nat × Cursor → Checked β} (wide : 256 ^ size ≤ hi + 1)
    (h : size ≤ c.rest.length → Agrees (rest (ofBe (c.rest.take size), ⟨c.offset + size, c.rest.drop size⟩))
      (offence fs (c.offset + size) (c.rest.drop size))) :
    Agrees (c.num size 0 hi >>= rest) (offence (free size :: fs) c.offset c.rest) := by
  rw [Cursor.num_eq]
  refine Cursor.field_agrees ?_ ?_ ?_
  · intro short
    have : ¬size ≤ c.rest.length := Nat.not_le.mpr short
    simp [this]
  · intro _ out
    cases out
  · intro (whole : size ≤ c.rest.length) _
    have := ofBe_lt (c.rest.take size)
    rw [List.length_take, Nat.min_eq_left whole] at this
    exact ⟨_, if_pos ⟨whole, by omega, by omega⟩, h whole⟩

/-- A number put into another form. -/
theorem Cursor.map_agrees {α β : Type} {c : Cursor} {size lo hi : Nat} {fs : List Field} {g : Nat → α}
    {rest : α × Cursor → Checked β}
    (h : size ≤ c.rest.length → lo ≤ ofBe (c.rest.take size) → ofBe (c.rest.take size) ≤ hi →
      Agrees (rest (g (ofBe (c.rest.take size)), ⟨c.offset + size, c.rest.drop size⟩))
        (offence fs (c.offset + size) (c.rest.drop size))) :
    Agrees ((c.num size lo hi >>= fun v => .ok (g v.1, v.2)) >>= rest)
      (offence (between size lo hi :: fs) c.offset c.rest) := by
  have : ((c.num size lo hi >>= fun v => (.ok (g v.1, v.2) : Checked (α × Cursor))) >>= rest)
      = c.num size lo hi >>= fun v => rest (g v.1, v.2) := by
    cases c.num size lo hi <;> rfl
  rw [this]
  exact Cursor.num_agrees h

/-- An id that is not 0. -/
theorem Cursor.id_agrees {β : Type} {c : Cursor} {fs : List Field} {rest : Id × Cursor → Checked β}
    (h : 4 ≤ c.rest.length → Agrees (rest (BitVec.ofNat 32 (ofBe (c.rest.take 4)), ⟨c.offset + 4, c.rest.drop 4⟩))
      (offence fs (c.offset + 4) (c.rest.drop 4))) :
    Agrees (c.id 1 >>= rest) (offence (nonzero :: fs) c.offset c.rest) :=
  Cursor.map_agrees fun whole _ _ => h whole

/-- A one-byte number below `n + 1`. -/
theorem Cursor.below_agrees {β : Type} {c : Cursor} {n : Nat} {fs : List Field}
    {rest : Fin (n + 1) × Cursor → Checked β}
    (h : ∀ v : Fin (n + 1), v.val = ofBe (c.rest.take 1) → Agrees (rest (v, ⟨c.offset + 1, c.rest.drop 1⟩))
      (offence fs (c.offset + 1) (c.rest.drop 1))) :
    Agrees (c.below (n + 1) >>= rest) (offence (between 1 0 n :: fs) c.offset c.rest) := by
  refine Cursor.field_agrees ?_ ?_ ?_
  · intro short
    have : c.rest.length < 1 := short
    simp [Cursor.below, Cursor.bytes, this, bind, Except.bind]
  · intro whole out
    have short : ¬c.rest.length < 1 := Nat.not_lt.mpr whole
    have : ¬ofBe (c.rest.take 1) < n + 1 := by
      have : ¬(0 ≤ ofBe (c.rest.take 1) ∧ ofBe (c.rest.take 1) ≤ n) := of_decide_eq_false out
      omega
    simp [Cursor.below, Cursor.bytes, short, this, bind, Except.bind]
  · intro whole ok
    have short : ¬c.rest.length < 1 := Nat.not_lt.mpr whole
    have : 0 ≤ ofBe (c.rest.take 1) ∧ ofBe (c.rest.take 1) ≤ n := of_decide_eq_true ok
    refine ⟨⟨ofBe (c.rest.take 1), by omega⟩, ?_, h _ rfl⟩
    have lt : ofBe (c.rest.take 1) < n + 1 := by omega
    simp only [Cursor.below, Cursor.bytes, short, if_false, bind, Except.bind, lt, dif_pos]
    rfl

/-- One of a fixed set of values, whose bytes are those from `lo` to `hi`. -/
theorem Cursor.pick_agrees {α β : Type} {c : Cursor} {lo hi : Nat} {read : Byte → Option α} {fs : List Field}
    {rest : α × Cursor → Checked β} (set : ∀ b : Byte, (read b).isSome = true ↔ lo ≤ b.toNat ∧ b.toNat ≤ hi)
    (h : ∀ a, read (BitVec.ofNat 8 (ofBe (c.rest.take 1))) = some a →
      Agrees (rest (a, ⟨c.offset + 1, c.rest.drop 1⟩)) (offence fs (c.offset + 1) (c.rest.drop 1))) :
    Agrees (c.pick read >>= rest) (offence (between 1 lo hi :: fs) c.offset c.rest) := by
  have byte (whole : 1 ≤ c.rest.length) :
      (BitVec.ofNat 8 (ofBe (c.rest.take 1))).toNat = ofBe (c.rest.take 1) ∧ ofBe (c.rest.take 1) ≤ 255 := by
    have := ofBe_lt (c.rest.take 1)
    rw [List.length_take, Nat.min_eq_left whole, pow_one] at this
    exact ⟨by simpa using this, by omega⟩
  have reads (whole : 1 ≤ c.rest.length) : c.pick read =
      match read (BitVec.ofNat 8 (ofBe (c.rest.take 1))) with
      | some a => .ok (a, ⟨c.offset + 1, c.rest.drop 1⟩)
      | none => .error c.offset := by
    have := Cursor.num_eq c 1 0 255
    rw [if_pos ⟨whole, by omega, (byte whole).2⟩] at this
    unfold Cursor.pick
    rw [this]
    rfl
  refine Cursor.field_agrees ?_ ?_ ?_
  · intro short
    have : ¬1 ≤ c.rest.length := Nat.not_le.mpr short
    simp [Cursor.pick, Cursor.num_eq, this, bind, Except.bind]
  · intro whole out
    have no : ¬(lo ≤ ofBe (c.rest.take 1) ∧ ofBe (c.rest.take 1) ≤ hi) := of_decide_eq_false out
    rw [← (byte whole).1, ← set] at no
    rw [reads whole]
    cases found : read (BitVec.ofNat 8 (ofBe (c.rest.take 1)))
    · rfl
    · simp [found] at no
  · intro whole ok
    have yes : lo ≤ ofBe (c.rest.take 1) ∧ ofBe (c.rest.take 1) ≤ hi := of_decide_eq_true ok
    rw [← (byte whole).1, ← set] at yes
    rw [reads whole]
    cases found : read (BitVec.ofNat 8 (ofBe (c.rest.take 1)))
    · simp [found] at yes
    · exact ⟨_, rfl, h _ found⟩

/-- A temperature within its limits. -/
theorem Cursor.temp_agrees {β : Type} {c : Cursor} {lo hi : Int} {fs : List Field} {rest : Int × Cursor → Checked β}
    (h : 2 ≤ c.rest.length →
      Agrees (rest ((BitVec.ofNat 16 (ofBe (c.rest.take 2))).toInt, ⟨c.offset + 2, c.rest.drop 2⟩))
        (offence fs (c.offset + 2) (c.rest.drop 2))) :
    Agrees (c.temp lo hi >>= rest) (offence (degrees lo hi :: fs) c.offset c.rest) := by
  have reads : c.temp lo hi =
      if 2 ≤ c.rest.length ∧ lo ≤ (BitVec.ofNat 16 (ofBe (c.rest.take 2))).toInt
          ∧ (BitVec.ofNat 16 (ofBe (c.rest.take 2))).toInt ≤ hi then
        .ok ((BitVec.ofNat 16 (ofBe (c.rest.take 2))).toInt, ⟨c.offset + 2, c.rest.drop 2⟩)
      else .error c.offset := by
    by_cases whole : 2 ≤ c.rest.length
    · have bound := ofBe_lt (c.rest.take 2)
      rw [List.length_take, Nat.min_eq_left whole] at bound
      have := Cursor.num_eq c 2 0 65535
      rw [if_pos ⟨whole, by omega, by omega⟩] at this
      simp only [Cursor.temp, this, bind, Except.bind, whole, true_and]
    · simp [Cursor.temp, Cursor.num_eq, whole, bind, Except.bind]
  rw [reads]
  refine Cursor.field_agrees ?_ ?_ ?_
  · intro short
    have : ¬2 ≤ c.rest.length := Nat.not_le.mpr short
    simp [this]
  · intro whole out
    have := of_decide_eq_false out
    exact if_neg fun x => this x.2
  · intro whole ok
    exact ⟨_, if_pos ⟨whole, of_decide_eq_true ok⟩, h whole⟩

end Sys2Proof.Machine
end

