-- ==== Sys2Proof/Laws/Operations.lean ====
section
/-! SUPPORT. Everything a shared operation can do, once each: what routing a notice touches, the outcomes of a
hold's placement and of the excess check, the first frame after a reset, and what is kept by serving a cell and by
the lot-join offer because a binding keeps it. -/

namespace Sys2Proof.Machine

/-! ## Notices touch ports only -/

/-- `t` is `s` but for the port units. -/
def State.OnlyPorts (s t : State) : Prop := t = { s with ports := t.ports }

theorem State.OnlyPorts.refl (s : State) : s.OnlyPorts s := rfl

theorem State.OnlyPorts.trans {s t u : State} (h : s.OnlyPorts t) (k : t.OnlyPorts u) : s.OnlyPorts u := by
  unfold State.OnlyPorts at *
  rw [k, h]

theorem State.onlyPorts_onPort (s : State) (p : Port) (f : PortUnit → PortUnit) : s.OnlyPorts (s.onPort p f) := rfl

theorem State.onlyPorts_notify (s : State) (p : Port) (n : Notice) : s.OnlyPorts (s.notify p n) := rfl

theorem State.onlyPorts_answer (s : State) (p : Port) (r : Option Req) (reply : Reply) :
    s.OnlyPorts (s.answer p r reply) := rfl

theorem State.onlyPorts_ncel (s : State) (c : CellNo) : s.OnlyPorts (s.ncel c) := rfl

theorem State.onlyPorts_notifyEquip (s : State) (id : Id) (n : Notice) : s.OnlyPorts (s.notifyEquip id n) := by
  unfold State.notifyEquip
  split
  · split
    · exact s.onlyPorts_notify _ _
    · exact .refl s
  · exact .refl s

theorem State.onlyPorts_notifyMember (s : State) (m : Option Id) (n : Id → Notice) :
    s.OnlyPorts (s.notifyMember m n) := by
  cases m with
  | none => exact .refl s
  | some id => exact s.onlyPorts_notifyEquip id _

theorem State.onlyPorts_notifyMembers (s : State) (c : CellNo) (n : Id → Notice) :
    s.OnlyPorts (s.notifyMembers c n) :=
  (s.onlyPorts_notifyMember _ n).trans (State.onlyPorts_notifyMember _ _ n)

theorem State.onlyPorts_nlot (s : State) (id : Id) (cause : Cause) (hold : Option (HoldKind × Nat)) :
    s.OnlyPorts (s.nlot id cause hold) := by
  unfold State.nlot
  split
  · exact s.onlyPorts_notify _ _
  · exact .refl s

/-! ## Holds -/

/-- Everything a placement can do: nothing, the overflow flag, or a new record (R139, R140). -/
theorem State.placeHold_cases (s : State) (src : Option Port) (id : Id) (kind : HoldKind) (a d : Nat) :
    s.placeHold src id kind a d = s
    ∨ (s.hasHold id kind a = false ∧ s.holdsFull = true ∧ s.placeHold src id kind a d = s.setOverflow id)
    ∨ (∃ l, s.lot id = some l ∧ s.hasHold id kind a = false ∧ s.holdsFull = false
        ∧ s.placeHold src id kind a d = s.appendHold ⟨id, kind, a, d, src, s.clock.stamp, 0⟩) := by
  unfold State.placeHold
  split
  · exact .inl rfl
  · rename_i known
    simp only [not_or, Bool.not_eq_true] at known
    split
    · exact .inr (.inl ⟨known.2, ‹_›, rfl⟩)
    · rename_i room
      refine .inr (.inr ?_)
      cases h : s.lot id with
      | none => simp [h] at known
      | some l => exact ⟨l, rfl, known.2, Bool.eq_false_iff.mpr room, rfl⟩

/-- Everything the overflow flag's setting can do (R140). -/
theorem State.setOverflow_cases (s : State) (id : Id) :
    s.setOverflow id = s
    ∨ ∃ l, s.lot id = some l ∧ l.overflow = false
      ∧ (s.setOverflow id = (s.onLot id fun l => { l with overflow := true }).nlot id .overflowSet
        ∨ s.setOverflow id = ((s.onLot id fun l => { l with overflow := true }).nlot id .overflowSet).firstHold id) := by
  unfold State.setOverflow
  split
  · exact .inl rfl
  · rename_i l known
    cases flag : l.overflow with
    | true => simp
    | false =>
      refine .inr ⟨l, known, flag, ?_⟩
      cases l.unheld <;> simp

/-- Everything a first hold can do (R143). -/
theorem State.firstHold_cases (s : State) (id : Id) :
    s.firstHold id = s ∨ s.firstHold id = s.leaveQueue id ∨ (∃ c, s.firstHold id = s.stopRun c)
    ∨ s.firstHold id = s.withdraw id := by
  unfold State.firstHold
  split
  · exact .inl rfl
  · split
    · exact .inr (.inl rfl)
    · split
      · exact .inr (.inr (.inl ⟨_, rfl⟩))
      · exact .inl rfl
    · exact .inr (.inr (.inr rfl))
    all_goals exact .inl rfl

/-- Everything the stop of a run can do (R104). -/
theorem State.stopRun_cases (s : State) (c : CellNo) :
    s.stopRun c = s
    ∨ ∃ r, (s.cell c).state = .running ∧ (s.cell c).run = some r ∧ ∃ u, s.OnlyPorts u
      ∧ s.stopRun c = u.moveCell c fun x => { x with run := some { r with stopFlag := true }, state := .stopping } := by
  unfold State.stopRun
  split
  · rename_i r state run
    exact .inr ⟨r, state, run, _, s.onlyPorts_notifyMember _ _, rfl⟩
  · exact .inl rfl

/-! ## Serving and offering -/

/-- What every binding at a cell keeps, serving the cell keeps (R82). -/
theorem State.serve_keeps (Keep : State → Prop) {src : Option Port} {c : CellNo}
    (bind : ∀ (u : State) (id : Id), u.choice c = some id → Keep u → Keep (u.bind src id c)) {s : State}
    (h : Keep s) : Keep (s.serve src c) := by
  unfold State.serve
  generalize s.queue.length = fuel
  induction fuel generalizing s with
  | zero => exact h
  | succ n ih =>
    unfold State.serveUpTo
    split
    · exact h
    · exact ih (bind _ _ ‹_› h)

/-- What every binding keeps, the lot-join offer keeps (R83). -/
theorem State.offer_keeps (Keep : State → Prop) {src : Option Port} {id : Id}
    (bind : ∀ (u : State) (k : Id) (c : CellNo), Keep u → Keep (u.bind src k c)) {s : State} (h : Keep s) :
    Keep (s.offer src id) := by
  unfold State.offer
  generalize s.queue.length = fuel
  induction fuel generalizing s with
  | zero => exact h
  | succ n ih =>
    unfold State.offerUpTo
    split
    · exact h
    · split
      · exact ih (State.serve_keeps Keep (fun u k _ k' => bind u k _ k') h)
      · exact State.serve_keeps Keep (fun u k _ k' => bind u k _ k') (bind _ _ _ h)

/-- A cell that is not IDLE is bound no lot (R80). -/
theorem State.eligible_idle {s : State} {l : Lot} {c : CellNo} (h : s.eligible l c = true) :
    (s.cell c).state = .idle := by
  simp only [State.eligible, Bool.and_eq_true, decide_eq_true_eq] at h
  exact h.1.1.1

/-! ## A reset's RSUM, and the excess check -/

/-- Everything the end of a frame from before a FLOOR RESET can do on its idle line: the RSUM of the reset is the
first frame after it (R19), or the transmitter goes on (R16). -/
theorem PortUnit.resumeFirst_cases (u : PortUnit) (idle : u.line = none) :
    (u.flow = some .rsum ∧ u.resumeFirst = { u with flow := none, line := some ⟨.flow, Flow.rsum.bytes⟩ })
    ∨ (u.flow ≠ some .rsum ∧ u.resumeFirst = u.startNext) := by
  unfold PortUnit.resumeFirst
  by_cases h : u.flow = some .rsum <;> simp [h, idle]

/-- The excess check places its hold where the count X grew, and only there (R123, R124). -/
theorem State.checkExcess_cases (s : State) (src : Option Port) (id : Id) (before after : Nat) :
    (before < after ∧ s.checkExcess src id before after = s.placeHold src id .reconcile excessArg after)
    ∨ (after ≤ before ∧ s.checkExcess src id before after = s) := by
  unfold State.checkExcess
  by_cases h : before < after
  · simp [h]
  · exact .inr ⟨by omega, by simp [h]⟩

end Sys2Proof.Machine
end

