-- ==== Sys2Proof/Laws/Requests.lean ====
section
/-! SUPPORT. What examining a request comes to (R8): for a request that a supervisor asks, or that a known piece
of equipment sends, with a payload that reads well or badly. -/

namespace Sys2Proof.Machine

/-- With nothing brought about, a command finds the state as it stands. -/
@[simp] theorem State.settle_of_quiet {s : State} (h : s.Quiet) : s.settle = s := by
  have h' : s.due = [] := h
  cases s
  simp_all [State.settle]

/-- A command takes up the request in service when it is of its row, and else leaves the state. -/
theorem State.request_eq {α : Type} {s : State} {p : Port} {r : Req} {mine : List Byte → Bool}
    {read : List Byte → Checked α} {owner : Owner α} {src : Id} {payload : List Byte} (quiet : s.Quiet)
    (service : s.InService p r src payload) (fits : mine payload = true) :
    ∃ v, v.progress = .taken ∧ v.frame.source = src ∧ v.frame.payload = payload
      ∧ s.request p r mine read owner = s.examine p r read owner v := by
  obtain ⟨v, hv, taken, code, hsrc, hpay⟩ := service
  refine ⟨v, taken, hsrc, hpay, ?_⟩
  have : s.taken p = some v := by simp [State.taken, hv, taken]
  simp [State.request, quiet, this, code, hpay, fits]

/-- A supervisor's request with a payload that reads well is carried out by its owner and answered. -/
theorem State.request_ok {α : Type} {s : State} {p : Port} {r : Req} {mine : List Byte → Bool}
    {read : List Byte → Checked α} {owner : Owner α} {payload : List Byte} {a : α} (asks : s.Asks p r payload)
    (fits : mine payload = true) (reads : read payload = .ok a) :
    ∃ f, s.request p r mine read owner = (owner f a s).1.answer p (some r) (owner f a s).2 := by
  obtain ⟨quiet, loaded, sup, permitted, service⟩ := asks
  obtain ⟨v, taken, hsrc, hpay, h⟩ := State.request_eq (read := read) (owner := owner) quiet service fits
  refine ⟨v.frame, ?_⟩
  rw [h]
  simp [State.examine, State.startsUp, taken, loaded, permitted, sup, hsrc, State.checkFields, hpay, reads, State.carryOut]

/-- A supervisor's request with a payload that reads badly is refused FIELD with the offset. -/
theorem State.request_error {α : Type} {s : State} {p : Port} {r : Req} {mine : List Byte → Bool}
    {read : List Byte → Checked α} {owner : Owner α} {payload : List Byte} {n : Nat} (asks : s.Asks p r payload)
    (fits : mine payload = true) (reads : read payload = .error n) :
    s.request p r mine read owner = s.answer p (some r) (.check .field (arg n)) := by
  obtain ⟨quiet, loaded, sup, permitted, service⟩ := asks
  obtain ⟨v, taken, hsrc, hpay, h⟩ := State.request_eq (read := read) (owner := owner) quiet service fits
  rw [h]
  simp [State.examine, State.startsUp, taken, loaded, permitted, sup, hsrc, State.checkFields, hpay, reads, State.refuse]

/-- A known sender's request other than EANN refreshes its entry first; one that reads well is then carried
out, a return is reported, and it is answered. -/
theorem State.request_sent {α : Type} {s : State} {p : Port} {r : Req} {mine : List Byte → Bool}
    {read : List Byte → Checked α} {owner : Owner α} {id : Id} {payload : List Byte} {i : Position} {e : Entry}
    {a : α} (sends : s.Sends p r id payload i e) (other : r ≠ .eann) (fits : mine payload = true)
    (reads : read payload = .ok a) :
    ∃ f, f.source = id ∧ s.request p r mine read owner =
      ((owner f a (s.refresh i e p)).1.reportReturn e.returnsTo id).answer p (some r)
        (owner f a (s.refresh i e p)).2 := by
  obtain ⟨⟨quiet, loaded, sup, permitted, nz, service⟩, found, room⟩ := sends
  have nonzero : ¬id = 0#32 := nz
  obtain ⟨v, taken, hsrc, hpay, h⟩ := State.request_eq (read := read) (owner := owner) quiet service fits
  refine ⟨v.frame, hsrc, ?_⟩
  have full : ¬(e.port ≠ p ∧ Config.entriesPerPort ≤ s.portCount p) := by
    rintro ⟨hp, hn⟩
    cases room with
    | inl h => exact hp h
    | inr h => omega
  rw [h]
  simp [State.examine, State.startsUp, taken, loaded, permitted, sup, State.checkSender, hsrc, nonzero, found, full, other,
    State.checkKnown, hpay, reads, State.refresh, Entry.refreshed, (State.find_entry found).2]

/-- A known sender's request other than EANN that reads badly refreshes its entry all the same and is refused
FIELD (R24). -/
theorem State.request_sent_error {α : Type} {s : State} {p : Port} {r : Req} {mine : List Byte → Bool}
    {read : List Byte → Checked α} {owner : Owner α} {id : Id} {payload : List Byte} {i : Position} {e : Entry}
    {n : Nat} (sends : s.Sends p r id payload i e) (other : r ≠ .eann) (fits : mine payload = true)
    (reads : read payload = .error n) :
    s.request p r mine read owner =
      ((s.refresh i e p).reportReturn e.returnsTo id).answer p (some r) (.check .field (arg n)) := by
  obtain ⟨⟨quiet, loaded, sup, permitted, nz, service⟩, found, room⟩ := sends
  have nonzero : ¬id = 0#32 := nz
  obtain ⟨v, taken, hsrc, hpay, h⟩ := State.request_eq (read := read) (owner := owner) quiet service fits
  have full : ¬(e.port ≠ p ∧ Config.entriesPerPort ≤ s.portCount p) := by
    rintro ⟨hp, hn⟩
    cases room with
    | inl h => exact hp h
    | inr h => omega
  rw [h]
  simp [State.examine, State.startsUp, taken, loaded, permitted, sup, State.checkSender, hsrc, nonzero, found, full, other,
    State.checkKnown, hpay, reads, State.refuse, State.refresh, Entry.refreshed, (State.find_entry found).2]

/-- EANN that passes the sender's check is carried out without a refresh (R25, R26). -/
theorem State.request_announced {α : Type} {s : State} {p : Port} {mine : List Byte → Bool}
    {read : List Byte → Checked α} {owner : Owner α} {id : Id} {payload : List Byte} {a : α}
    (speaks : s.Speaks p .eann id payload) (fits : mine payload = true) (reads : read payload = .ok a)
    (room : ∀ i e, s.find id = some (i, e) → e.port = p ∨ s.portCount p < Config.entriesPerPort) :
    ∃ f, f.source = id ∧ s.request p .eann mine read owner =
      (owner f a s).1.answer p (some .eann) (owner f a s).2 := by
  obtain ⟨quiet, loaded, sup, permitted, nz, service⟩ := speaks
  have nonzero : ¬id = 0#32 := nz
  obtain ⟨v, taken, hsrc, hpay, h⟩ := State.request_eq (read := read) (owner := owner) quiet service fits
  refine ⟨v.frame, hsrc, ?_⟩
  rw [h]
  cases found : s.find id with
  | none =>
    simp [State.examine, State.startsUp, taken, loaded, permitted, sup, State.checkSender, hsrc, nonzero, found, State.checkFields,
      hpay, reads, State.carryOut]
  | some ie =>
    obtain ⟨i, e⟩ := ie
    have full : ¬(e.port ≠ p ∧ Config.entriesPerPort ≤ s.portCount p) := by
      rintro ⟨hp, hn⟩
      cases room i e found with
      | inl h => exact hp h
      | inr h => omega
    simp [State.examine, State.startsUp, taken, loaded, permitted, sup, State.checkSender, hsrc, nonzero, found, full,
      State.checkFields, hpay, reads, State.carryOut]

end Sys2Proof.Machine
end

