-- ==== Sys2Proof/WellFormed.lean ====
section
/-! DEFINITION. Which commands are well formed. The operand types already keep a port below 34, a cell
below 16 and a position below 48; what is left to check is that LENGTH_BELOW_6 carries a length below 6
(R2: a length of 6 or more is the event RECEIVED_BYTE instead). -/

namespace Sys2Proof

/-- The command's operands are such as its row of the table speaks of. -/
def Instr.wellFormed : Instr → Bool
  | .lengthBelow6 _ length => length.toNat < 6
  | .powerOnReset _ | .floorReset | .startUpLoad _ | .storeLoadReattempt _ | .storeWrite _ => true
  | .frameComplete _ _ | .gapAbort _ | .frameSent _ | .receivedByte _ _ => true
  | .secondsTick | .minuteTick | .entryStale _ | .entryRemoval _ | .soakEnd _ => true
  | .negotiationDeadlineExpiry _ | .loadDeadlineExpiry _ => true
  | .settleDeadlineExpiry _ | .closeDeadlineExpiry _ => true
  | .lent _ | .lrem _ | .lpri _ | .lsht _ => true
  | .qlotSummary _ | .qlotCounts _ | .qlotHolds _ | .qlotList _ => true
  | .hold _ | .hclr _ | .hovc _ => true
  | .cdck _ | .cund _ | .crdk _ | .cmod _ | .csen _ | .qcel _ | .cunb _ => true
  | .qeqp _ | .qeqpList _ | .stak _ | .sarm _ | .qres _ | .rlse _ | .clks _ => true
  | .wprd _ | .wbpl _ | .wpar _ | .wwin _ | .crdy _ | .csav _ | .frst _ => true
  | .eann _ | .eabl _ | .ecnf _ | .epld _ | .eldf _ | .etmp _ | .ernd _ | .ebin _ => true
  | .sens _ | .psta _ | .unknownCode _ => true

end Sys2Proof
end

