-- ==== Sys2Proof/Tests/Slice0.lean ====
section
/-! SUPPORT. The model's own tests: the well-formedness check, small states built by helpers, one step or one
operation each with its result from the spec's text, and, for every statement with hypotheses, a concrete state
and operands that meet them. -/

namespace Sys2Proof.Tests

open Sys2Proof Sys2Proof.Machine

-- one theorem at a time: many at once, each with a thread of its own, can exceed the memory limit
set_option Elab.async false

/-! ## Well-formedness -/

theorem test_wellFormed_length_below_6 : (Instr.lengthBelow6 0 5).wellFormed = true := by decide

theorem test_illFormed_length_of_6 : (Instr.lengthBelow6 0 6).wellFormed = false := by decide

theorem test_no_word_spells_a_command : decodeTableWord 8 0x5A = none := rfl

/-! ## Small states -/

/-- The code byte of a request (12.1). -/
def codeOf (r : Req) : Byte := BitVec.ofNat 8 (allRequests.idxOf r + 1)

theorem ofCode_codeOf (r : Req) : Req.ofCode (codeOf r) = some r := by cases r <;> decide

/-- The request `r` from `src` is in service on `p` with this payload. -/
def asking (s : State) (p : Port) (r : Req) (src : Id) (payload : List Byte) : State :=
  s.setPort p { s.port p with service := some ⟨⟨codeOf r, 7, src, payload⟩, 0, .taken⟩ }

theorem inService_asking (s : State) (p : Port) (r : Req) (src : Id) (payload : List Byte) :
    (asking s p r src payload).InService p r src payload :=
  ⟨⟨⟨codeOf r, 7, src, payload⟩, 0, .taken⟩, by simp [asking], rfl, ofCode_codeOf r, rfl, rfl⟩

theorem asks_asking {s : State} (p : Port) (r : Req) (payload : List Byte) (quiet : s.due = [])
    (loaded : s.configState ≠ .loading) (sup : supervisor p = true) (permitted : r.permitted p = true) :
    (asking s p r 0 payload).Asks p r payload :=
  ⟨quiet, loaded, sup, permitted, inService_asking s p r 0 payload⟩

theorem sends_asking {s : State} (p : Port) (r : Req) (id : Id) (payload : List Byte) (i : Position) (e : Entry)
    (quiet : s.due = []) (loaded : s.configState ≠ .loading) (equip : supervisor p = false)
    (permitted : r.permitted p = true) (nonzero : id ≠ 0) (found : s.find id = some (i, e)) (room : e.port = p) :
    (asking s p r id payload).Sends p r id payload i e :=
  ⟨⟨quiet, loaded, equip, permitted, nonzero, inService_asking s p r id payload⟩, found, .inl room⟩

/-- Product 3 of the tests: plan 1, one retest, a soak of 60 s, samples of 20 permille from 32 to 200. -/
def product : Product :=
  { defined := true, family := 2, setPoint := 85, kit := 5, options := 0x0001, program := 900, plan := 1,
    yieldMin := 9000, guard := 100, maxRetests := 1, soakTime := 60, samplePermille := 20, sampleMin := 32,
    sampleMax := 200, acceptNumber := 1, siteLimit := 500, siteGuard := 100 }

/-- Plan 1: bin 1 passes, bins 5 and 7 are for retest, bin 9 has a limit of 100 basis points. -/
def plan : BinPlan := Vector.ofFn fun b =>
  if b.val = 1 then ⟨.pass, 10000⟩ else if b.val = 5 ∨ b.val = 7 then ⟨.retest, 10000⟩
  else if b.val = 9 then ⟨.fail, 100⟩ else ⟨.fail, 10000⟩

/-- A configured part with that product and no lot. -/
def ready : State :=
  { State.reset with
    configState := .configured
    tables := { Tables.cleared with
      products := Tables.cleared.products.set 3 product
      plans := Tables.cleared.plans.set 1 plan } }

/-- A lot of product 3 that has come no further than its entry. -/
def lot (id : Id) (started : Nat) : Lot :=
  { id := id, product := 3, cls := .production, basePriority := 3, sequence := id, joinStamp := 0,
    state := .waiting, cell := none, pass := 0, runCount := 0, started := started, tested := 0, lost := 0,
    rejects := 0, final := Bins.zero, poolNow := Bins.zero, poolNext := Bins.zero, sampleSize := none,
    holdCount := 0, overflow := false, samplePending := false }

def withLot (s : State) (l : Lot) : State := { s with lots := s.lots ++ [l] }

/-- `n` units in bin 1. -/
def good (n : Nat) : Bins := Bins.zero.set 1 n

/-- A lot all of whose units are in bin 1 and which has left test in state `st`. -/
def doneLot (id : Id) (st : LotState) (n : Nat) : Lot :=
  { lot id n with state := st, tested := n, final := good n }

def hand : Entry := ⟨101, 2, .present, 0, some 4, .handler ⟨0x0004, -40, 125, 0x0F, 5⟩⟩
def test : Entry := ⟨202, 3, .present, 0, some 4, .tester ⟨0x07, 0x0003, 900⟩⟩

/-- The capability of those two (R40). -/
def cap : Capability := ⟨0x0004, -40, 125, 5, 0x0003, 0x07⟩

/-- Cell 4 with those two members, in a state. -/
def cellIn (st : CellState) : Cell :=
  { Cell.vacant with
    state := st, mode := .production, handler := some 101, tester := some 202, common := some cap,
    active := 0x07 }

/-- The two entries, free or members of cell 4. -/
def equipped (s : State) (member : Option CellNo) : State :=
  (s.setEntry 0 (some { hand with membership := member })).setEntry 1 (some { test with membership := member })

/-- Cell 4 as given, with its members. -/
def paired (x : Cell) : State := (equipped ready (some 4)).setCell 4 x

/-- Run 1 of the first pass on sites 0 to 2. -/
def run1 : Run :=
  { number := 1, pass := 0, expected := 100, binned := 0, excess := 0, sites := 0x07,
    counts := Vector.replicate 8 ⟨0, 0⟩, stopFlag := false, handlerCount := none, endReason := none,
    closeDeadline := none }

/-- Lot 6001 of `n` units bound to cell 4, which is as given. -/
def bound (x : Cell) (n : Nat) : State :=
  withLot (paired { x with bound := some 6001 }) { lot 6001 n with state := .bound, cell := some 4 }

/-- The same with run 1 open. -/
def running (st : CellState) (n : Nat) : State := bound { cellIn st with run := some run1 } n

/-- The state that a command leaves, or the state before it. -/
def after (i : Instr) (s : State) : State :=
  match exec i s with
  | .next t => t
  | .fault _ => s
  | .refused _ => s

/-- The payload of the response on a port. -/
def response (s : State) (p : Port) : Option (List Byte) :=
  match (s.port p).service with
  | some ⟨_, _, .answered payload⟩ => some payload
  | _ => none

/-! ## Witnesses: what meets the hypotheses of each statement -/

/-- The states of a part that is nothing but quiet. -/
theorem witness_StepTakesFrontCommandWhichCompletes : State.reset.pending = [] := rfl

theorem witness_PowerOnResetLeavesResetState :
    State.reset.storeJob ≠ some .write ∧ { ready with storeJob := some StoreJob.write }.storeJob = some .write := by
  decide

/-- Port 0 has sent FRST's GOOD response; other ports hold a flow slot in each of its three positions. -/
def resetting (p : Port) (flow : Option Flow) (line : Option Line) : State :=
  { (ready.setPort p { PortUnit.reset with holdOff := true, flow := flow, line := line }) with
    due := [.floorReset] }

theorem witness_FrstResetsFloorAfterItsResponse :
    (asking ready 0 .frst 0 []).Asks 0 .frst []
    ∧ (let s := ready.setPort 0 { PortUnit.reset with
          service := some ⟨⟨0x1C, 7, 0, []⟩, 0, .answered [0x00]⟩, line := some ⟨.response, []⟩ };
        s.Quiet ∧ (s.port 0).line = some ⟨.response, []⟩
        ∧ (s.port 0).service = some ⟨⟨0x1C, 7, 0, []⟩, 0, .answered [0x00]⟩ ∧ Req.ofCode 0x1C = some .frst)
    ∧ (Due.floorReset ∈ (resetting 2 none none).due ∧ ((resetting 2 none none).port 2).holdOff = true
        ∧ ((resetting 2 none none).port 2).flow ≠ some .hoff ∧ ((resetting 2 none none).port 2).line = none)
    ∧ (((resetting 2 (some .hoff) none).port 2).holdOff = true
        ∧ ((resetting 2 (some .hoff) none).port 2).flow = some .hoff)
    ∧ (((resetting 2 none (some ⟨.notice, [0x5A]⟩)).port 2).holdOff = true
        ∧ ((resetting 2 none (some ⟨.notice, [0x5A]⟩)).port 2).flow ≠ some .hoff
        ∧ ((resetting 2 none (some ⟨.notice, [0x5A]⟩)).port 2).line ≠ none) := by
  refine ⟨asks_asking 0 .frst [] rfl (by decide) rfl rfl, ⟨rfl, ?_⟩, ?_, ?_, ?_⟩ <;> decide +kernel

theorem witness_StartUpLoadInstallsOrClears :
    State.reset.Quiet ∧ State.reset.configState = .loading ∧ State.reset.queue = [] ∧ State.reset.shipments = []
    ∧ 1 ≤ State.reset.store.tables.parameters.attention ∧ 1 ≤ Tables.cleared.parameters.attention := by
  refine ⟨rfl, ?_⟩
  decide +kernel

/-- A LENT or CDCK waits on port 0 for the store. -/
def waitingFor (r : Req) (payload : List Byte) (store : Store) : State :=
  { (State.reset.setPort 0
      { PortUnit.reset with service := some ⟨⟨codeOf r, 7, 0, payload⟩, 0, .waiting⟩ }) with
    configState := .unconfigured, storeJob := some .reattempt, store := store }

/-- LENT of lot 6001, product 3, 100 units, and the same with a restore part. -/
def lentPlain : LentFields := ⟨6001, 3, .production, 3, 100, none⟩
def lentWith (r : Restore) : LentFields := { lentPlain with restore := some r }

theorem inRange_lentPlain : lentPlain.InRange := by
  refine ⟨by decide, by decide, by decide, by decide, ?_⟩
  intro r h
  cases h

theorem inRange_lentWith {r : Restore} (h : r.InRange) : (lentWith r).InRange := by
  obtain ⟨a, b, c, d, -⟩ := inRange_lentPlain
  refine ⟨a, b, c, d, ?_⟩
  intro r' e
  cases e
  exact h

theorem witness_ReattemptInstallsOrRefuses :
    (let s := waitingFor .lent lentPlain.bytes Store.empty;
      s.Quiet ∧ s.storeJob = some .reattempt
        ∧ (s.port 0).service = some ⟨⟨codeOf .lent, 7, 0, lentPlain.bytes⟩, 0, .waiting⟩
        ∧ (decide (StoreReply.answers = StoreReply.answers) && s.store.marker && s.store.crcGood) = false)
    ∧ (let s := waitingFor .lent lentPlain.bytes ⟨true, true, Tables.cleared⟩;
      s.storeJob = some .reattempt ∧ s.queue = [] ∧ s.shipments = []
        ∧ 1 ≤ s.store.tables.parameters.attention
        ∧ (decide (StoreReply.answers = StoreReply.answers) && s.store.marker && s.store.crcGood) = true
        ∧ Req.ofCode (codeOf .lent) = some .lent ∧ (readLent lentPlain.bytes).toOption = some lentPlain
        ∧ (s.store.tables.products[lentPlain.product]).defined = false)
    ∧ (let s := waitingFor .cdck (num1 (4 : CellNo) ++ be32 101 ++ be32 202) ⟨true, true, ready.tables⟩;
      Req.ofCode (codeOf .cdck) = some .cdck
        ∧ (readCdck (num1 (4 : CellNo) ++ be32 101 ++ be32 202)).toOption = some (4, 101, 202)
        ∧ (s.cell 4).state = .vacant ∧ s.equip 101 = none)
    ∧ (let s := equipped (waitingFor .cdck (num1 (4 : CellNo) ++ be32 101 ++ be32 202) ⟨true, true, ready.tables⟩) none;
      (s.port 0).service = some ⟨⟨codeOf .cdck, 7, 0, num1 (4 : CellNo) ++ be32 101 ++ be32 202⟩, 0, .waiting⟩
        ∧ (s.cell 4).state = .vacant ∧ s.find 101 = some (0, { hand with membership := none })
        ∧ s.find 202 = some (1, { test with membership := none }) ∧ hand.state = .present ∧ test.state = .present
        ∧ hand.ability.kind = .handler ∧ test.ability.kind = .tester) := by
  refine ⟨⟨rfl, ?_⟩, ?_, ?_, ?_⟩ <;> decide +kernel

theorem witness_SaveWritesStoreOrErasesMarker :
    (asking { ready with configState := .unconfigured } 0 .csav 0 []).Asks 0 .csav []
    ∧ (asking ready 0 .csav 0 []).Asks 0 .csav [] ∧ (asking ready 0 .csav 0 []).configState = .configured
    ∧ { ready with storeJob := some StoreJob.write }.Quiet :=
  ⟨asks_asking 0 .csav [] rfl (by decide) rfl rfl, asks_asking 0 .csav [] rfl (by decide) rfl rfl, rfl, rfl⟩

/-- A request that port 0 took into service during a start-up load that has ended since. -/
def early (r : Req) (payload : List Byte) : State :=
  ready.setPort 0 { PortUnit.reset with service := some ⟨⟨codeOf r, 7, 0, payload⟩, 0, .takenInLoad⟩ }

theorem witness_StartUpAnswersBusy :
    (asking State.reset 5 .sens 0 []).Quiet ∧ (asking State.reset 5 .sens 0 []).configState = .loading
    ∧ Examines (.sens 5) (asking State.reset 5 .sens 0 []) 5 .sens 0 []
    ∧ (let s := State.reset.setPort 5 { PortUnit.reset with service := some ⟨⟨0x27, 7, 0, []⟩, 0, .taken⟩ };
        s.Quiet ∧ s.configState = .loading ∧ (s.port 5).service = some ⟨⟨0x27, 7, 0, []⟩, 0, .taken⟩
        ∧ Req.ofCode 0x27 = none)
    ∧ (let s := early .lrem (be32 6001);
      s.Quiet ∧ requestOf (.lrem 0) = some (0, .lrem, anyPayload)
        ∧ (s.port 0).service = some ⟨⟨codeOf .lrem, 7, 0, be32 6001⟩, 0, .takenInLoad⟩
        ∧ Req.ofCode (codeOf .lrem) = some .lrem ∧ s.configState = .configured)
    ∧ (let s := ready.setPort 5 { PortUnit.reset with service := some ⟨⟨0x27, 7, 0, []⟩, 0, .takenInLoad⟩ };
        s.Quiet ∧ (s.port 5).service = some ⟨⟨0x27, 7, 0, []⟩, 0, .takenInLoad⟩) := by
  refine ⟨rfl, rfl, ⟨anyPayload, rfl, rfl, inService_asking _ _ _ _ _⟩, ⟨rfl, rfl, ?_⟩, ⟨rfl, rfl, ?_⟩, rfl, ?_⟩ <;>
    decide +kernel

/-- Four entries on port 3, and one on port 2. -/
def crowded : State :=
  ((((equipped ready none).setEntry 1 (some { test with membership := none })).setEntry 2
    (some { test with id := 203, membership := none })).setEntry 3
      (some { test with id := 204, membership := none })).setEntry 4
        (some { test with id := 205, membership := none })

theorem witness_CodePortAndSenderChecked :
    (let s := ready.setPort 0 { PortUnit.reset with service := some ⟨⟨0x00, 7, 0, []⟩, 0, .taken⟩ };
      s.Quiet ∧ s.configState ≠ .loading ∧ (s.port 0).service = some ⟨⟨0x00, 7, 0, []⟩, 0, .taken⟩
      ∧ Req.ofCode 0x00 = none)
    ∧ (Examines (.lent 1) (asking ready 1 .lent 0 []) 1 .lent 0 [] ∧ Req.lent.permitted 1 = false)
    ∧ (Examines (.hold 1) (asking ready 1 .hold 9 []) 1 .hold 9 [] ∧ Req.hold.permitted 1 = true)
    ∧ (Examines (.sens 33) (asking ready 33 .sens 0 []) 33 .sens 0 [] ∧ Req.sens.permitted 33 = true)
    ∧ (Examines (.sens 2) (asking ready 2 .sens 9 []) 2 .sens 9 []
        ∧ (asking ready 2 .sens 9 []).find 9 = none)
    ∧ (Examines (.sens 3) (asking crowded 3 .sens 101 []) 3 .sens 101 []
        ∧ (asking crowded 3 .sens 101 []).find 101 = some (0, { hand with membership := none })
        ∧ hand.port ≠ 3 ∧ 4 ≤ (asking crowded 3 .sens 101 []).portCount 3) := by
  refine ⟨⟨rfl, ?_⟩, ⟨⟨anyPayload, rfl, rfl, inService_asking _ _ _ _ _⟩, rfl⟩,
    ⟨⟨anyPayload, rfl, rfl, inService_asking _ _ _ _ _⟩, rfl⟩,
    ⟨⟨anyPayload, rfl, rfl, inService_asking _ _ _ _ _⟩, rfl⟩,
    ⟨⟨anyPayload, rfl, rfl, inService_asking _ _ _ _ _⟩, ?_⟩,
    ⟨⟨anyPayload, rfl, rfl, inService_asking _ _ _ _ _⟩, ?_⟩⟩ <;> decide +kernel

theorem witness_PayloadShapeChecked :
    (asking ready 0 .stak 0 [0x00]).Asks 0 .stak [0x00]
    ∧ (asking ready 0 .lrem 0 [0x00, 0x00, 0x01]).Asks 0 .lrem [0x00, 0x00, 0x01]
    ∧ ([0x00, 0x00, 0x01] : List Byte).length < 4
    ∧ (asking ready 1 .rlse 0 [0x00, 0x00, 0x00, 0x00]).Asks 1 .rlse [0x00, 0x00, 0x00, 0x00]
    ∧ (asking ready 0 .lsht 0 [0x00, 0x00, 0x00, 0x01, 0x00]).Asks 0 .lsht [0x00, 0x00, 0x00, 0x01, 0x00]
    ∧ 4 < ([0x00, 0x00, 0x00, 0x01, 0x00] : List Byte).length
    ∧ (asking ready 0 .cund 0 []).Asks 0 .cund [] ∧ (asking ready 0 .crdk 0 [0x10]).Asks 0 .crdk [0x10]
    ∧ 16 ≤ (0x10 : Byte).toNat ∧ (asking ready 0 .qcel 0 [0x0F, 0x00]).Asks 0 .qcel [0x0F, 0x00]
    ∧ (0x0F : Byte).toNat < 16
    ∧ (let b := be32 6001 ++ [0x03, 0x03, 0x03, 0x00, 0x64, 0x00];
      (asking ready 0 .lent 0 b).Asks 0 .lent b ∧ offence (Req.format .lent b) 8 b = some 13)
    ∧ (let b := be32 6001 ++ be 2 32 ++ be 2 33;
      (asking ready 1 .qres 0 b).Asks 1 .qres b ∧ offence (Req.format .qres b) 8 b = some 14)
    ∧ ((asking (equipped ready none) 2 .sens 101 [0x00]).Sends 2 .sens 101 [0x00] 0 { hand with membership := none }
      ∧ offence (Req.format .sens [0x00]) 8 [0x00] = some 8)
    ∧ (let b : List Byte := [0x01, 0x00, 0x04, 0x00, 0x7D, 0x00, 0x7C, 0x0F, 0x00, 0x05];
      (asking ready 2 .eann 101 b).Speaks 2 .eann 101 b ∧ (asking ready 2 .eann 101 b).find 101 = none
        ∧ offence (Req.format .eann b) 8 b = some 13) := by
  refine ⟨asks_asking _ _ _ rfl (by decide) rfl rfl, asks_asking _ _ _ rfl (by decide) rfl rfl, by decide,
    asks_asking _ _ _ rfl (by decide) rfl rfl, asks_asking _ _ _ rfl (by decide) rfl rfl, by decide,
    asks_asking _ _ _ rfl (by decide) rfl rfl, asks_asking _ _ _ rfl (by decide) rfl rfl, by decide,
    asks_asking _ _ _ rfl (by decide) rfl rfl, by decide,
    ⟨asks_asking _ _ _ rfl (by decide) rfl rfl, by decide +kernel⟩,
    ⟨asks_asking _ _ _ rfl (by decide) rfl rfl, by decide +kernel⟩,
    ⟨sends_asking _ _ _ _ _ _ rfl (by decide) rfl rfl (by decide) (by decide +kernel) rfl, by decide +kernel⟩,
    ⟨⟨rfl, by decide, rfl, rfl, by decide, inService_asking _ _ _ _ _⟩, by decide +kernel, by decide +kernel⟩⟩

/-! ### The links -/

theorem find_hand (m : Option CellNo) : (equipped ready m).find 101 = some (0, { hand with membership := m }) := by
  cases m with
  | none => decide +kernel
  | some c => revert c; decide +kernel

theorem find_test (m : Option CellNo) : (equipped ready m).find 202 = some (1, { test with membership := m }) := by
  cases m with
  | none => decide +kernel
  | some c => revert c; decide +kernel

theorem witness_SenseAndStatusRead :
    (asking ready 0 .sens 0 []).Asks 0 .sens [] ∧ (asking ready 1 .psta 0 []).Asks 1 .psta []
    ∧ ((asking ready 1 .psta 0 []).port 1).service = some ⟨⟨codeOf .psta, 7, 0, []⟩, 0, .taken⟩
    ∧ (asking (equipped ready none) 3 .psta 202 []).Sends 3 .psta 202 [] 1 { test with membership := none }
    ∧ (asking (equipped ready none) 2 .sens 101 []).Sends 2 .sens 101 [] 0 { hand with membership := none } :=
  ⟨asks_asking _ _ _ rfl (by decide) rfl rfl, asks_asking _ _ _ rfl (by decide) rfl rfl, by simp [asking],
    sends_asking _ _ _ _ _ _ rfl (by decide) rfl rfl (by decide) (find_test none) rfl,
    sends_asking _ _ _ _ _ _ rfl (by decide) rfl rfl (by decide) (find_hand none) rfl⟩

theorem witness_AnswerWritesResponseAndSense :
    ((asking ready 0 .sens 0 []).port 0).service = some ⟨⟨codeOf .sens, 7, 0, []⟩, 0, .taken⟩
    ∧ ((asking ready 0 .sens 0 []).port 0).line = none
    ∧ ((ready.setPort 0 { PortUnit.reset with line := some ⟨.notice, []⟩ }).port 0).line = some ⟨.notice, []⟩
    ∧ Reply.busy ≠ .wait := by decide +kernel

/-- A port that sends a notice, with these notices behind it. -/
def busyPort (unsent : List Notice) : PortUnit :=
  { PortUnit.reset with
    line := some ⟨.notice, (Notice.ndis 1 0).bytes⟩, sending := some (.ndis 1 0), unsent := unsent }

/-- 15 notices of different lots. -/
def fifteen : List Notice := (List.range 15).map fun n => .nlot (BitVec.ofNat 32 (n + 1)) none 0 false .removed none

theorem witness_NoticeCoalescedPlacedOrLost :
    ((busyPort [.nabq 9 1]).line ≠ none ∧ ∃ m ∈ (busyPort [.nabq 9 1]).unsent, m.key = (Notice.nabq 9 4).key)
    ∧ ((∀ m ∈ (busyPort fifteen.dropLast).unsent, m.key ≠ (Notice.natt 1 1).key)
        ∧ (busyPort fifteen.dropLast).outbox < 16)
    ∧ ((∀ m ∈ (busyPort fifteen).unsent, m.key ≠ (Notice.natt 1 1).key) ∧ ¬(busyPort fifteen).outbox < 16)
    ∧ (busyPort []).unsent = [] ∧ ¬(busyPort [.nabq 9 1]).unsent = []
    ∧ (PortUnit.reset.line = none ∧ PortUnit.reset.service = none ∧ PortUnit.reset.flow = none
        ∧ PortUnit.reset.sending = none ∧ PortUnit.reset.unsent = [])
    ∧ ({ PortUnit.reset with service := some ⟨⟨0x01, 7, 0, []⟩, 0, .answered [0x00]⟩ }.line = none
        ∧ { PortUnit.reset with service := some ⟨⟨0x01, 7, 0, []⟩, 0, .answered [0x00]⟩ }.service
          = some ⟨⟨0x01, 7, 0, []⟩, 0, .answered [0x00]⟩)
    ∧ ({ PortUnit.reset with service := some ⟨⟨0x01, 7, 0, []⟩, 0, .taken⟩, flow := some Flow.hoff }.line = none
        ∧ { PortUnit.reset with flow := some Flow.hoff }.flow = some .hoff)
    ∧ ({ PortUnit.reset with unsent := [Notice.ndis 1 0] }.line = none
        ∧ [Notice.ndis 1 0] ++ [Notice.nabq 9 1] = .ndis 1 0 :: [Notice.nabq 9 1])
    ∧ (withLot ready (lot 6001 100)).lot 6001 = some (lot 6001 100) ∧ ready.lot 6001 = none := by decide +kernel

/-- A port on whose line a FLOOR RESET found a frame, with the RSUM that it placed, and a request that has been
answered BUSY START-UP since. -/
def afterReset : PortUnit :=
  { PortUnit.reset with
    line := some ⟨.leftOver, [0x5A]⟩, flow := some .rsum,
    service := some ⟨⟨0x01, 7, 0, []⟩, 0, .answered [0x01]⟩ }

theorem witness_TransmitterSendsByPriority :
    ready.Quiet ∧ (busyPort []).line ≠ none ∧ PortUnit.reset.line = none
    ∧ { PortUnit.reset with service := some ⟨⟨0x01, 7, 0, []⟩, 0, .answered [0x00]⟩ }.service
        = some ⟨⟨0x01, 7, 0, []⟩, 0, .answered [0x00]⟩
    ∧ { PortUnit.reset with flow := some Flow.hoff }.flow = some .hoff
    ∧ { PortUnit.reset with unsent := [Notice.ndis 1 0] }.unsent = [Notice.ndis 1 0]
    ∧ (let u : PortUnit := { PortUnit.reset with
          service := some ⟨⟨0x01, 7, 0, []⟩, 0, .answered [0x00]⟩, line := some ⟨.response, []⟩ };
        u.sendsFloorReset = false ∧ u.intake = [])
    ∧ (let u : PortUnit := { PortUnit.reset with
          intake := [⟨0x02, 1, 0, []⟩, ⟨0x03, 2, 0, []⟩, ⟨0x04, 3, 0, []⟩], holdOff := true
          service := some ⟨⟨0x01, 7, 0, []⟩, 0, .answered [0x00]⟩, line := some ⟨.response, []⟩ };
        u.sendsFloorReset = false ∧ u.intake.tail.length = 2 ∧ u.holdOff = true)
    ∧ (afterReset.line = some ⟨.leftOver, [0x5A]⟩ ∧ afterReset.flow = some .rsum
        ∧ { afterReset with flow := none }.flow ≠ some .rsum) := by
  refine ⟨rfl, ?_⟩
  decide +kernel

theorem witness_ReceiverFollowsBytes :
    ready.Quiet ∧ (ready.port 0).receiver = .hunting
    ∧ { PortUnit.reset with receiver := .synced }.receiver ≠ .hunting
    ∧ 6 ≤ (0x06 : Byte).toNat ∧ (0x05 : Byte).toNat < 6
    ∧ ([] : List Byte).length + 1 < 6 + 3 ∧ ([0, 0, 0, 0, 0, 0, 0, 0] : List Byte).length + 1 = 6 + 3 := by
  refine ⟨rfl, ?_⟩
  decide +kernel

/-- The frame of R12's SENS with tag 7, but for its sync bytes, length and last byte. -/
def sensBody : List Byte := [0x01, 0x25, 0x07, 0, 0, 0, 0]

theorem witness_CompleteFrameJudged :
    ready.Quiet ∧ ([] : List Byte).length ≤ 249
    ∧ { PortUnit.reset with receiver := .body 6 (sensBody ++ [0x2D]) }.receiver
        = .body (6 + ([] : List Byte).length) ((0x01 :: 0x25 :: 0x07 :: (be32 0 ++ [])) ++ [0x2D])
    ∧ (∃ c1 c2 : Byte, [c1, c2] = be 2 (crc16 (BitVec.ofNat 8 6 :: sensBody)).toNat)
    ∧ PortUnit.reset.service = none ∧ PortUnit.reset.intake = []
    ∧ (let u : PortUnit := { PortUnit.reset with service := some ⟨⟨0x25, 7, 0, []⟩, 0, .taken⟩ };
        u.service ≠ none ∧ u.intake.length < 8)
    ∧ 8 ≤ (List.replicate 8 (⟨0x25, 7, 0, []⟩ : Frame)).length := by
  refine ⟨rfl, by decide, rfl, ⟨_, _, rfl⟩, ?_⟩
  decide +kernel

theorem witness_RequestFrameReceivedWhole :
    ready.Quiet ∧ (List.replicate 249 (0 : Byte)).length ≤ 249 ∧ (ready.port 33).receiver = .hunting := by
  refine ⟨rfl, ?_⟩
  decide +kernel

/-! ### Ticks, deadlines and gates -/

/-- A part at 59 s with a cell 4 in this state. -/
def late (x : Cell) : State := { bound x 100 with clock := { Clock.reset with seconds := 59 } }

theorem witness_SecondsTickCountsAndBringsAboutEvents :
    (late { cellIn .closing with run := some { run1 with closeDeadline := some 1 } }).Quiet
    ∧ (late (cellIn .idle)).clock.seconds = 59 ∧ ready.tables.parameters.aging ≠ 0 := by
  refine ⟨rfl, ?_⟩
  decide +kernel

theorem witness_MinuteTickAdvancesClock :
    { ready with due := [.minute] }.due = [.minute]
    ∧ { ready with due := [.minute], clock := { Clock.reset with minute := 1439 } }.clock.minute
      = ready.tables.parameters.period
    ∧ { State.reset with due := [.minute] }.configState = .loading := by decide +kernel

theorem witness_GatesFollowWindowsAndDeliverChanges :
    (∀ w ∈ [(⟨.dispatch, 7, 7⟩ : Window)], ¬(w.kind = .dispatch ∧ w.start ≠ w.stop))
    ∧ (5 ≤ 5 ∧ 5 < 10 ∧ ¬(5 ≤ 10 ∧ 10 < 10) ∧ ¬10 < 5 ∧ 10 ≤ 10 ∧ ¬5 < 5)
    ∧ gateAt [⟨.dispatch, 5, 10⟩] .dispatch 5 = .opened ∧ gateAt [⟨.dispatch, 5, 10⟩] .dispatch 10 = .closed
    ∧ gateAt [⟨.dispatch, 10, 5⟩] .dispatch 10 = .opened ∧ gateAt [⟨.dispatch, 10, 5⟩] .dispatch 5 = .closed
    ∧ (let s := { ready with clock := { Clock.reset with releaseGate := .closed, dispatchGate := .closed } };
        s.clock.releaseGate = .closed
        ∧ gateAt s.tables.windows.toList .release s.clock.minute ≠ .closed)
    ∧ (let s := { ready with tables :=
          { ready.tables with windows := ready.tables.windows.set 2 ⟨.release, 1, 2⟩ } };
        s.clock.releaseGate ≠ .closed ∧ gateAt s.tables.windows.toList .release s.clock.minute = .closed)
    ∧ (ready.clock.releaseGate = .closed
        ↔ gateAt ready.tables.windows.toList .release ready.clock.minute = .closed) := by decide +kernel

/-- The handler of cell 4 with an age, in a state, and an event due. -/
def aged (st : EquipState) (age : Nat) (member : Option CellNo) (d : Due) : State :=
  { ((equipped ready member).setCell 4 (cellIn .idle)).setEntry 0
      (some { hand with state := st, age := age, membership := member }) with due := [d] }

theorem witness_EntryRefreshedElseGoesStaleThenAway :
    (requestOf (.sens 2) = some (2, .sens, anyPayload) ∧ Req.sens ≠ .eann
      ∧ (asking (equipped ready none) 2 .sens 101 []).Sends 2 .sens 101 [] 0 { hand with membership := none })
    ∧ (let s := aged .present 120 (some 4) (.stale 0);
      s.due = [.stale 0] ∧ s.entry 0 = some { hand with age := 120 } ∧ s.tables.parameters.aging ≠ 0
        ∧ s.tables.parameters.aging ≤ 120)
    ∧ (let s := aged .stale 240 none (.removal 0);
      s.due = [.removal 0] ∧ s.entry 0 = some { hand with state := .stale, age := 240, membership := none }
        ∧ s.tables.parameters.aging ≠ 0 ∧ 2 * s.tables.parameters.aging ≤ 240) := by
  refine ⟨⟨rfl, by decide,
    sends_asking 2 .sens 101 [] 0 _ rfl (by decide) rfl rfl (by decide) (find_hand none) rfl⟩, ?_⟩
  decide +kernel

theorem witness_DisturbanceEndsWorkAndHoldsLot :
    (ready.cell 4).state = .vacant
    ∧ ((running .running 100).cell 4).state ≠ .vacant ∧ ((running .running 100).cell 4).state ≠ .lost
    ∧ ((running .running 100).cell 4).bound = some 6001
    ∧ (((paired (cellIn .lost)).cell 4).state = .lost ∧ (paired (cellIn .lost)).membersPresent 4 = true)
    ∧ ((aged .stale 120 (some 4) .minute).setCell 4 (cellIn .lost)).membersPresent 4 = false := by
  decide +kernel

/-- A negotiation of cell 4: the handler has reported, or nobody has accepted the proposal. -/
def asked : Negotiation := ⟨true, false, false, false, none, 5⟩
def proposed : Negotiation := ⟨true, true, false, false, some cap, 5⟩
def negotiating (st : CellState) (n : Negotiation) : State :=
  paired { cellIn st with mode := .maintenance, common := none, active := 0, negotiation := some n }

theorem witness_OfferNegotiatesAfresh :
    (((paired (cellIn .lost)).cell 4).state = .lost ∧ (paired (cellIn .lost)).membersPresent 4 = true)
    ∧ ((aged .stale 120 (some 4) .minute).setCell 4 (cellIn .lost)).membersPresent 4 = false
    ∧ (let s := negotiating .offer asked;
      (s.cell 4).state = .offer ∧ (s.cell 4).negotiation = some asked ∧ (s.cell 4).handler = some 101
        ∧ (s.cell 4).tester ≠ some 101 ∧ (s.cell 4).tester = some 202 ∧ (s.cell 4).handler ≠ some 202)
    ∧ (let s := negotiating .confirm proposed;
      (s.cell 4).state = .confirm ∧ (s.cell 4).negotiation = some proposed ∧ proposed.proposed = some cap
        ∧ (s.cell 4).tester = some 202 ∧ (s.cell 4).handler ≠ some 202 ∧ (s.cell 4).handler = some 101
        ∧ (s.cell 4).tester ≠ some 101)
    ∧ (let s := paired (cellIn .idle);
      (s.cell 4).state ≠ .lost ∧ (s.cell 4).state ≠ .offer ∧ (s.cell 4).state ≠ .confirm) := by decide +kernel

/-- Cell 4 prepares lot 6001, with an event due. -/
def preparing (q : Preparation) (soak : Nat) (d : Option Due) : State :=
  { bound
      { cellIn .preparing with
        preparation := some q, thermal := ⟨some 85, true, soak⟩, loadRequest := some 900 } 100 with
    due := d.toList }

theorem witness_SoakEndAndDeadlineExpiriesAct :
    (let s := preparing ⟨.pending, some 9, .soaking, none⟩ 60 (some (.soak 4));
      s.due = [.soak 4] ∧ (s.cell 4).state = .preparing
        ∧ (s.cell 4).preparation = some ⟨.pending, some 9, .soaking, none⟩
        ∧ s.boundLot 4 = some { lot 6001 100 with state := .bound, cell := some 4 }
        ∧ (s.product { lot 6001 100 with state := .bound, cell := some 4 }).soakTime
          ≤ (s.cell 4).thermal.soak)
    ∧ { lot 6001 100 with holdCount := 1 }.unheld = false
    ∧ (lot 6001 100).unheld = true ∧ (lot 6001 100).hasWork = true
    ∧ (let l := { lot 6001 100 with tested := 100, poolNext := good 2 };
      l.unheld = true ∧ l.hasWork = false ∧ l.retests product.maxRetests = true)
    ∧ (let l := doneLot 6001 .bound 100; l.hasWork = false ∧ l.retests product.maxRetests = false)
    ∧ ProgramPart.done ≠ .pending
    ∧ (let s := { negotiating .offer { asked with deadline := 0 } with due := [Due.negotiation 4] };
      s.due = [.negotiation 4] ∧ (s.cell 4).state = .offer
        ∧ (s.cell 4).negotiation = some { asked with deadline := 0 })
    ∧ (let s := preparing ⟨.pending, some 0, .done, none⟩ 60 (some (.load 4));
      s.due = [.load 4] ∧ (s.cell 4).preparation = some ⟨.pending, some 0, .done, none⟩)
    ∧ (let s := preparing ⟨.done, none, .settling, some 0⟩ 0 (some (.settle 4));
      s.due = [.settle 4] ∧ (s.cell 4).preparation = some ⟨.done, none, .settling, some 0⟩)
    ∧ (let r := { run1 with handlerCount := some 3, endReason := some EndReason.stopped, closeDeadline := some 0 };
      let s := { bound { cellIn .closing with run := some r } 100 with due := [Due.close 4] };
      s.due = [.close 4] ∧ (s.cell 4).state = .closing ∧ (s.cell 4).run = some r) := by decide +kernel

/-! ### Dispatch and runs -/

/-- Lot 6001 and lot 6002, of priorities 3 and 5, wait; cell 4 is IDLE. -/
def queued : State :=
  { withLot (withLot (paired (cellIn .idle)) (lot 6001 100)) { lot 6002 50 with basePriority := 5 } with
    queue := [⟨6001, 3⟩, ⟨6002, 5⟩] }

theorem witness_QueueOrderAndEffectivePriority :
    queued.lot (⟨6001, 3⟩ : Waiting).lot = some (lot 6001 100)
    ∧ (let s := { queued with clock := { Clock.reset with stamp := 120 } };
      1 ≤ s.tables.parameters.agingStep
        ∧ 7 - (lot 6001 100).basePriority
          ≤ (s.clock.stamp - (lot 6001 100).joinStamp).toNat / s.tables.parameters.agingStep)
    ∧ (let s := { queued with clock := { Clock.reset with stamp := 119 } };
      (s.clock.stamp - (lot 6001 100).joinStamp).toNat / s.tables.parameters.agingStep
        < 7 - (lot 6001 100).basePriority) := by decide +kernel

theorem witness_ServiceAndOfferBindByQueueOrder :
    queued.choice 4 = some 6002 ∧ queued.choice 5 = none ∧ (queued.cell 5).state ≠ .idle
    ∧ (queued.queue.find? fun v => decide (v.lot = 6001)) = some ⟨6001, 3⟩
    ∧ (queued.bindable 4 ⟨6001, 3⟩ = true
      ∧ ∀ d, queued.bindable d ⟨6001, 3⟩ = true → queued.holdsProgram d ⟨6001, 3⟩ = true → (4 : CellNo).val ≤ d.val)
    ∧ (∃ v ∈ queued.queueOrder.takeWhile fun v => decide (v.lot ≠ 6001), queued.bindable 4 v = true)
    ∧ (∀ v ∈ queued.queueOrder.takeWhile fun v => decide (v.lot ≠ 6002), queued.bindable 4 v = false)
    ∧ (∀ c, ¬((queued.setCell 4 Cell.vacant).bindable c ⟨6001, 3⟩ = true))
    ∧ (∀ c, ((queued.setCell 4 Cell.vacant).cell c).state ≠ .idle) := by decide +kernel

/-- Cell 4, with lot 6001 bound to it, before its preparation, with a thermal record. -/
def settled (t : Thermal) : State := bound { cellIn .idle with thermal := t } 100

theorem witness_BindingPreparesCellAndUnbindingReturnsLot :
    (settled Thermal.clear).boundLot 4 = some { lot 6001 100 with state := .bound, cell := some 4 }
    ∧ ((settled ⟨some 85, true, 60⟩).cell 4).thermal.setPoint = some product.setPoint ∧ product.soakTime ≤ 60
    ∧ 59 < product.soakTime ∧ ((settled ⟨some 85, false, 0⟩).cell 4).thermal.reached = false
    ∧ ((settled Thermal.clear).cell 4).thermal.setPoint ≠ some product.setPoint
    ∧ (running .lost 100).lot 6001 = some { lot 6001 100 with state := .bound, cell := some 4 }
    ∧ (running .lost 100).inQueue 6001 = false ∧ { lot 6001 100 with overflow := true }.unheld = false
    ∧ (lot 6001 100).unheld = true
    ∧ (let s := preparing ⟨.pending, none, .done, none⟩ 60 none;
      (s.cell 4).preparation = some ⟨.pending, none, .done, none⟩
        ∧ s.boundLot 4 = some { lot 6001 100 with state := .bound, cell := some 4 })
    ∧ (let s := preparing ⟨.done, none, .done, none⟩ 60 none;
      (s.cell 4).preparation = some ⟨.done, none, .done, none⟩ ∧ ProgramPart.done ≠ .pending)
    ∧ (lot 6001 100).hasWork = true
    ∧ (let l := { lot 6001 100 with tested := 100, poolNext := good 2 };
      l.hasWork = false ∧ l.retests product.maxRetests = true)
    ∧ (let l := doneLot 6001 .bound 100; l.hasWork = false ∧ l.retests product.maxRetests = false) := by decide +kernel

theorem witness_RunOpensOnActiveSites :
    ((running .paused 100).cell 4).active ≠ 0 ∧ ((paired { cellIn .paused with active := 0 }).cell 4).active = 0 := by
  decide +kernel

/-- Lot 6001 bound to cell 4 with run 1, with this account. -/
def counted (tested : Nat) (final pool : Bins) (held : Nat) : State :=
  withLot (paired { cellIn .running with run := some run1, bound := some 6001 })
    { lot 6001 100 with
      state := .bound, cell := some 4, tested := tested, final := final, poolNext := pool, holdCount := held }

theorem witness_PassCompletionAndRunCloseDecideNext :
    (let l := { lot 6001 100 with poolNext := good 2 };
      (∃ b : Fin 16, l.poolNow[b] + l.poolNext[b] ≠ 0) ∧ l.pass < product.maxRetests)
    ∧ (∀ b : Fin 16, (lot 6001 100).poolNow[b] + (lot 6001 100).poolNext[b] = 0)
    ∧ 1 ≤ product.maxRetests
    ∧ (let s := counted 98 (good 98) Bins.zero 0;
      (s.cell 4).bound = some 6001
        ∧ ((s.lot 6001).map Lot.hasWork = some true ∧ (s.lot 6001).map Lot.unheld = some true))
    ∧ ((counted 98 (good 98) Bins.zero 1).lot 6001).map Lot.unheld = some false
    ∧ (let s := counted 100 (good 98) (Bins.zero.set 5 2) 0;
      (s.lot 6001).map Lot.hasWork = some false ∧ (s.lot 6001).map (fun l => l.retests 1) = some true
        ∧ ((s.setCell 4 { s.cell 4 with run := none }).lot 6001).map Lot.unheld = some true)
    ∧ ((counted 100 (good 100) Bins.zero 0).lot 6001).map (fun l => l.retests 1) = some false := by decide +kernel

/-! ### Requests of the supervisors -/

theorem floor {s : State} (r : Req) (payload : List Byte) (quiet : s.due = [])
    (configured : s.configState = .configured) (permitted : r.permitted 0 = true) :
    (asking s 0 r 0 payload).Asks 0 r payload :=
  asks_asking 0 r payload quiet (by rw [configured]; decide) rfl permitted

theorem station {s : State} (r : Req) (payload : List Byte) (quiet : s.due = [])
    (configured : s.configState = .configured) (permitted : r.permitted 1 = true) :
    (asking s 1 r 0 payload).Asks 1 r payload :=
  asks_asking 1 r payload quiet (by rw [configured]; decide) rfl permitted

/-- Restore parts of LENT: with units still to test, with a pool to retest, with nothing left, and one whose
counts do not add up. -/
def part (tested : Nat) (pool : Bins) : Restore := ⟨0, tested, 0, good 98, pool⟩
def two : Bins := Bins.zero.set 5 2

theorem small_good : ∀ b : Fin 16, (good 98)[b] ≤ 65535 := by decide +kernel

theorem inRange_part {n : Nat} (h : n ≤ 65535) (pool : Bins) (small : ∀ b : Fin 16, pool[b] ≤ 65535) :
    (part n pool).InRange := by
  exact ⟨Nat.zero_le 3, h, Nat.zero_le 65535, fun b => ⟨small_good b, small b⟩⟩

/-- LENT in service on a part with these lots. -/
def entering (lots : List Lot) (f : LentFields) : State := asking { ready with lots := lots } 0 .lent 0 f.bytes

theorem witness_LotEntryAddsRecord :
    (lentPlain.InRange ∧ (entering [] lentPlain).Asks 0 .lent lentPlain.bytes
      ∧ (entering [] lentPlain).configState = .configured ∧ (ready.tables.products[(3 : Fin 32)]).defined = true
      ∧ (entering [] lentPlain).lot 6001 = none)
    ∧ (asking { ready with configState := .unconfigured } 0 .lent 0 lentPlain.bytes).Asks 0 .lent lentPlain.bytes
    ∧ (ready.tables.products[(4 : Fin 32)]).defined = false
    ∧ (entering [lot 6001 100] lentPlain).lot 6001 ≠ none
    ∧ 256 ≤ (entering ((List.range 256).map fun n => lot (BitVec.ofNat 32 (n + 1)) 1) lentPlain).lots.length
    ∧ ((lentWith (part 98 two)).InRange ∧ (part 98 two).final.total + (part 98 two).pool.total ≠ (part 98 two).tested)
    ∧ ((lentWith (part 98 Bins.zero)).InRange
      ∧ (entering [] (lentWith (part 98 Bins.zero))).Asks 0 .lent (lentWith (part 98 Bins.zero)).bytes
      ∧ (part 98 Bins.zero).final.total + (part 98 Bins.zero).pool.total = 98 ∧ 98 + 0 < lentPlain.started)
    ∧ ((lentWith (part 100 two)).InRange
      ∧ (part 100 two).final.total + (part 100 two).pool.total = 100 ∧ 100 + 0 ≤ lentPlain.started
      ∧ (∀ b : Fin 16, plan[b].cls = .retest ∨ (part 100 two).pool[b] = 0) ∧ 0 < product.maxRetests
      ∧ ∃ b : Fin 16, (part 100 two).pool[b] ≠ 0)
    ∧ ∀ b : Fin 16, (part 98 Bins.zero).pool[b] = 0 := by
  refine ⟨⟨inRange_lentPlain, floor _ _ rfl rfl rfl, ?_⟩, asks_asking _ _ _ rfl (by decide) rfl rfl, ?_, ?_, ?_,
    ⟨inRange_lentWith (inRange_part (by decide) _ ?_), ?_⟩,
    ⟨inRange_lentWith (inRange_part (by decide) _ ?_), floor _ _ rfl rfl rfl, ?_⟩,
    ⟨inRange_lentWith (inRange_part (by decide) _ ?_), ?_⟩, ?_⟩ <;> decide +kernel

/-- A request about lot 6001 on port 0, with that lot and its place in the queue. -/
def about (l : Lot) (waits : Bool) (r : Req) (payload : List Byte) : State :=
  asking { withLot ready l with queue := if waits then [⟨6001, 3⟩] else [] } 0 r 0 payload

theorem witness_LotRemovalPriorityAndShortCount :
    ((about (lot 6001 100) true .lrem (be32 6001)).Asks 0 .lrem (be32 6001)
      ∧ (about (lot 6001 100) true .lrem (be32 6001)).lot 6001 = some (lot 6001 100)
      ∧ (asking ready 0 .lrem 0 (be32 6001)).lot 6001 = none)
    ∧ (about (lot 6001 100) true .lpri (be32 6001 ++ be 1 7)).Asks 0 .lpri (be32 6001 ++ be 1 7)
    ∧ ((about (lot 6001 100) true .lpri (be32 6001 ++ be 1 7)).inQueue 6001 = true
      ∧ (about (lot 6001 100) false .lpri (be32 6001 ++ be 1 7)).inQueue 6001 = false)
    ∧ (let s := asking queued 0 .lpri 0 (be32 6001 ++ be 1 7);
      let based := s.onLot 6001 fun l => { l with basePriority := 7 };
      (({ based with queue := based.queue.map fun w : Waiting =>
          if w.lot = 6001 then { w with priority := 7 } else w } : State).offer (some 0) 6001).inQueue 6001 = false)
    ∧ ((about (lot 6001 100) true .lsht (be32 6001)).Asks 0 .lsht (be32 6001)
      ∧ (lot 6001 100).state ≠ .bound ∧ (lot 6001 100).tested + (lot 6001 100).lost ≠ (lot 6001 100).started)
    ∧ (doneLot 6001 .tested 100).tested + (doneLot 6001 .tested 100).lost = (doneLot 6001 .tested 100).started
    ∧ (let l := { lot 6001 100 with tested := 100, poolNext := two };
      l.pass < product.maxRetests ∧ ∃ b : Fin 16, l.poolNow[b] + l.poolNext[b] ≠ 0)
    ∧ ¬∃ b : Fin 16, (lot 6001 100).poolNow[b] + (lot 6001 100).poolNext[b] ≠ 0 := by
  refine ⟨⟨floor _ _ rfl rfl rfl, ?_⟩, floor _ _ rfl rfl rfl, ?_, ?_, ⟨floor _ _ rfl rfl rfl, ?_⟩, ?_⟩ <;>
    decide +kernel

theorem witness_QueriesReadRecords :
    (let b := (0x01 : Byte) :: be32 6001;
      (about (lot 6001 100) true .qlot b).Asks 0 .qlot b
        ∧ (about (lot 6001 100) true .qlot b).lot 6001 = some (lot 6001 100)
        ∧ (asking ready 0 .qlot 0 b).Asks 0 .qlot b ∧ (asking ready 0 .qlot 0 b).lot 6001 = none)
    ∧ (let b := (0x02 : Byte) :: be32 6001; (asking ready 1 .qlot 0 b).Asks 1 .qlot b)
    ∧ (let b := (0x03 : Byte) :: (be32 6001 ++ be 1 63); (about (lot 6001 100) true .qlot b).Asks 0 .qlot b)
    ∧ (let b := (0x04 : Byte) :: be32 1; (about (lot 6001 100) true .qlot b).Asks 0 .qlot b)
    ∧ (asking ready 0 .qcel 0 (num1 (15 : CellNo))).Asks 0 .qcel (num1 (15 : CellNo))
    ∧ ((asking (equipped ready none) 0 .qeqp 0 (be32 101)).Asks 0 .qeqp (be32 101)
      ∧ (asking (equipped ready none) 0 .qeqp 0 (be32 101)).find 101 = some (0, { hand with membership := none })
      ∧ (asking (equipped ready none) 0 .qeqp 0 (be32 101)).find 303 = none)
    ∧ (asking (equipped ready none) 0 .qeqp 0 (be32 0)).Asks 0 .qeqp (be32 0) := by
  refine ⟨⟨floor _ _ rfl rfl rfl, ?_, floor _ _ rfl rfl rfl, ?_⟩, station _ _ rfl rfl rfl, floor _ _ rfl rfl rfl,
    floor _ _ rfl rfl rfl, floor _ _ rfl rfl rfl, ⟨floor _ _ rfl rfl rfl, ?_⟩, floor _ _ rfl rfl rfl⟩ <;>
    decide +kernel

/-- A hold of lot 6001. -/
def held (kind : HoldKind) (a : Nat) : HoldRecord := ⟨6001, kind, a, 0, some 0, 0, 0⟩

/-- A full hold list: 64 holds of another lot. -/
def fullList : List HoldRecord := (List.range 64).map fun n => { held .operator n with lot := 7001 }

theorem witness_PlacementsAndHoldRequestHoldLot :
    (withLot ready (lot 6001 100)).lot 6001 = some (lot 6001 100)
    ∧ (∃ h ∈ [held .yield 0], h.lot = 6001 ∧ h.kind = .yield ∧ h.arg = 0)
    ∧ (¬(∃ h ∈ fullList, h.lot = 6001 ∧ h.kind = .yield ∧ h.arg = 0) ∧ 64 ≤ fullList.length)
    ∧ ({ lot 6001 100 with overflow := true }.overflow = true ∧ (lot 6001 100).overflow = false
      ∧ (lot 6001 100).holdCount = 0 ∧ (lot 6001 100).state = .waiting)
    ∧ (let s := running .running 100;
      s.lot 6001 = some { lot 6001 100 with state := .bound, cell := some 4 } ∧ (s.cell 4).state = .running
        ∧ (s.cell 4).run = some run1 ∧ (s.cell 4).bound = some 6001)
    ∧ ((running .closing 100).cell 4).state ≠ .running
    ∧ ((doneLot 6001 .released 100).state = .released ∧ (doneLot 6001 .sampling 100).state = .sampling)
    ∧ (let b := be32 6001 ++ be 2 65535;
      (about (lot 6001 100) true .hold b).Asks 0 .hold b
        ∧ (asking (withLot ready (lot 6001 100)) 1 .hold 0 b).Asks 1 .hold b
        ∧ (asking ready 0 .hold 0 b).lot 6001 = none) := by
  refine ⟨?_, ?_, ?_, ?_, ?_, ?_, ?_, floor _ _ rfl rfl rfl, station _ _ rfl rfl rfl, ?_⟩ <;> decide +kernel

/-- HCLR of lot 6001's hold of a kind, with a disposition, on port `p`. -/
def clearing (l : Lot) (p : Port) (f : HclrFields) : State :=
  asking { withLot ready l with holds := [held f.kind f.arg] } p .hclr 0 f.bytes

theorem witness_ClearedHoldLetsLotGoOn :
    (let f : HclrFields := ⟨6001, .operator, 65535, .none⟩;
      f.InRange ∧ (clearing { lot 6001 100 with holdCount := 1 } 0 f).Asks 0 .hclr f.bytes
        ∧ (clearing { lot 6001 100 with holdCount := 1 } 0 f).lot 6001 = some { lot 6001 100 with holdCount := 1 }
        ∧ (∃ h ∈ (clearing { lot 6001 100 with holdCount := 1 } 0 f).holds,
          h.lot = f.lot ∧ h.kind = f.kind ∧ h.arg = f.arg))
    ∧ (let f : HclrFields := ⟨6001, .qa, 0, .accept⟩;
      f.InRange ∧ (clearing { doneLot 6001 .sampling 100 with holdCount := 1 } 1 f).Asks 1 .hclr f.bytes
        ∧ { doneLot 6001 .sampling 100 with holdCount := 1 }.samplePending = false)
    ∧ (⟨6001, .qa, 0, .resample⟩ : HclrFields).InRange
    ∧ (¬∃ h ∈ [held .yield 0], h.lot = 6001 ∧ h.kind = .bin ∧ h.arg = 15)
    ∧ ((about { lot 6001 100 with overflow := true } false .hovc (be32 6001)).Asks 0 .hovc (be32 6001)
      ∧ (about { lot 6001 100 with overflow := true } false .hovc (be32 6001)).lot 6001
        = some { lot 6001 100 with overflow := true }
      ∧ (lot 6001 100).overflow = false)
    ∧ (let s := bound (cellIn .paused) 100;
      s.lot 6001 = some { lot 6001 100 with state := .bound, cell := some 4 } ∧ (s.cell 4).state = .paused
        ∧ (s.cell 4).bound = some 6001 ∧ { lot 6001 100 with state := LotState.bound, cell := some 4 }.hasWork = true)
    ∧ (let l := { lot 6001 100 with state := LotState.bound, cell := some 4, tested := 100, poolNext := two };
      l.hasWork = false ∧ l.retests product.maxRetests = true)
    ∧ (let l := doneLot 6001 .bound 100; l.hasWork = false ∧ l.retests product.maxRetests = false)
    ∧ ((bound (cellIn .idle) 100).cell 4).state ≠ .paused
    ∧ (doneLot 6001 .sampling 100).samplePending = false
    ∧ { doneLot 6001 .sampling 100 with samplePending := true }.samplePending = true := by
  refine ⟨⟨⟨by decide, by decide, by decide, .inl rfl⟩, floor _ _ rfl rfl rfl, ?_⟩,
    ⟨⟨by decide, by decide, by decide, .inr rfl⟩, station _ _ rfl rfl rfl, ?_⟩,
    ⟨by decide, by decide, by decide, .inr rfl⟩, ?_, ⟨floor _ _ rfl rfl rfl, ?_⟩, ?_⟩ <;> decide +kernel

/-! ### Cells and release -/

/-- A request of the floor host about cell 4 in this state. -/
def cellAsk (x : Cell) (r : Req) (payload : List Byte) : State := asking (paired x) 0 r 0 payload

theorem witness_NegotiatingCellAnswersBusy :
    (cellAsk (cellIn .offer) .cund (num1 (4 : CellNo))).configState = .configured
    ∧ ((cellAsk (cellIn .offer) .cund (num1 (4 : CellNo))).cell 4).state = .offer
    ∧ (cellAsk (cellIn .offer) .cund (num1 (4 : CellNo))).Asks 0 .cund (num1 (4 : CellNo))
    ∧ (cellAsk (cellIn .confirm) .crdk (num1 (4 : CellNo))).Asks 0 .crdk (num1 (4 : CellNo))
    ∧ (let b := num1 (4 : CellNo) ++ be32 101 ++ be32 202; (cellAsk (cellIn .confirm) .cdck b).Asks 0 .cdck b)
    ∧ (let b := num1 (4 : CellNo) ++ [Mode.production.byte]; (cellAsk (cellIn .confirm) .cmod b).Asks 0 .cmod b)
    ∧ (let b := num1 (4 : CellNo) ++ num1 (7 : Fin 8); (cellAsk (cellIn .confirm) .csen b).Asks 0 .csen b)
    ∧ (cellAsk (cellIn .confirm) .cunb (num1 (4 : CellNo))).Asks 0 .cunb (num1 (4 : CellNo)) := by
  refine ⟨?_, ?_, floor _ _ rfl rfl rfl, floor _ _ rfl rfl rfl, floor _ _ rfl rfl rfl, floor _ _ rfl rfl rfl,
    floor _ _ rfl rfl rfl, floor _ _ rfl rfl rfl⟩ <;> decide +kernel

/-- CDCK of cell 4 with members `h` and `t`. -/
def docking (s : State) (h t : Id) : State := asking s 0 .cdck 0 (num1 (4 : CellNo) ++ be32 h ++ be32 t)

theorem witness_DockingMakesMembersAndOffers :
    (let s := docking (equipped ready none) 101 202;
      s.Asks 0 .cdck (num1 (4 : CellNo) ++ be32 101 ++ be32 202) ∧ s.configState = .configured
        ∧ (s.cell 4).state = .vacant
        ∧ s.find 101 = some (0, { hand with membership := none })
        ∧ s.find 202 = some (1, { test with membership := none })
        ∧ s.equip 101 = some { hand with membership := none } ∧ s.equip 303 = none)
    ∧ (let s := docking (equipped ready (some 9)) 101 202;
      s.Asks 0 .cdck (num1 (4 : CellNo) ++ be32 101 ++ be32 202)
        ∧ s.find 101 = some (0, { hand with membership := some 9 }))
    ∧ ((docking { ready with configState := .unconfigured } 101 202).Asks 0 .cdck
        (num1 (4 : CellNo) ++ be32 101 ++ be32 202))
    ∧ (cellIn .fault).state ≠ .vacant ∧ hand.ability.kind = .handler ∧ test.ability.kind = .tester := by
  refine ⟨⟨floor _ _ rfl rfl rfl, ?_⟩, ⟨floor _ _ rfl rfl rfl, ?_⟩, asks_asking _ _ _ rfl (by decide) rfl rfl, ?_⟩
    <;> decide +kernel

theorem witness_UndockingAndUnbindingByHost :
    (let s := cellAsk (cellIn .idle) .cund (num1 (4 : CellNo));
      s.Asks 0 .cund (num1 (4 : CellNo)) ∧ (s.cell 4).state ∈ [CellState.idle, .paused, .lost, .fault]
        ∧ (s.cell 4).handler = some 101 ∧ (s.cell 4).tester = some 202 ∧ (s.cell 4).bound = none
        ∧ s.find 101 = some (0, hand) ∧ s.find 202 = some (1, test))
    ∧ (let s := asking (bound (cellIn .paused) 100) 0 .cunb 0 (num1 (4 : CellNo));
      s.Asks 0 .cunb (num1 (4 : CellNo)) ∧ (s.cell 4).state = .paused ∧ (s.cell 4).bound = some 6001)
    ∧ (cellIn .running).state ∈ [CellState.vacant, .preparing, .running, .stopping, .closing] := by
  refine ⟨⟨floor _ _ rfl rfl rfl, ?_⟩, ⟨floor _ _ rfl rfl rfl, ?_⟩, ?_⟩ <;> decide +kernel

theorem witness_RedockModeAndSiteRequests :
    (let s := cellAsk (cellIn .fault) .crdk (num1 (4 : CellNo));
      s.Asks 0 .crdk (num1 (4 : CellNo)) ∧ (s.cell 4).state = .fault)
    ∧ (let b := num1 (4 : CellNo) ++ [Mode.maintenance.byte];
      (cellAsk (cellIn .idle) .cmod b).Asks 0 .cmod b ∧ Mode.maintenance ≠ (cellIn .idle).mode)
    ∧ (let b := num1 (4 : CellNo) ++ [Mode.engineering.byte];
      (cellAsk (cellIn .idle) .cmod b).Asks 0 .cmod b
        ∧ ¬(Mode.engineering = .maintenance ∨ (cellIn .idle).mode = .maintenance))
    ∧ (let b := num1 (4 : CellNo) ++ num1 (2 : Fin 8);
      (cellAsk { cellIn .paused with active := 0x03 } .csen b).Asks 0 .csen b
        ∧ (cellIn .paused).common = some cap ∧ cap.sites.getLsbD (2 : Fin 8).val = true)
    ∧ (let b := num1 (4 : CellNo) ++ num1 (3 : Fin 8);
      (cellAsk (cellIn .idle) .csen b).Asks 0 .csen b ∧ cap.sites.getLsbD (3 : Fin 8).val = false) := by
  refine ⟨⟨floor _ _ rfl rfl rfl, ?_⟩, ⟨floor _ _ rfl rfl rfl, ?_⟩, ⟨floor _ _ rfl rfl rfl, ?_⟩,
    ⟨floor _ _ rfl rfl rfl, ?_⟩, ⟨floor _ _ rfl rfl rfl, ?_⟩⟩ <;> decide +kernel

/-- The shipment record of lot 6001. -/
def shipped (offer : OfferState) : Shipment := ⟨6001, 3, 0, 0, 100, 0, 100, 0, 100, 10000, [(1, 100)], offer⟩

/-- Lot 6001 is RELEASED and its record in the queue. -/
def releasing (offer : OfferState) : State :=
  { withLot ready (doneLot 6001 .released 100) with shipments := [shipped offer] }

theorem witness_ShipmentTakenAndAttentionArmed :
    (let s := asking (releasing .offered) 0 .stak 0 [];
      s.Asks 0 .stak [] ∧ (s.shipments.find? fun r => decide (r.offer = .offered)) = some (shipped .offered)
        ∧ s.lot 6001 = some (doneLot 6001 .released 100))
    ∧ (let s := asking (releasing .queued) 0 .stak 0 [];
      s.Asks 0 .stak [] ∧ (s.shipments.filter fun r => decide (r.offer = .offered)).length = 0)
    ∧ ((asking (releasing .queued) 0 .sarm 0 []).Asks 0 .sarm []
      ∧ (asking (releasing .offered) 0 .sarm 0 []).Asks 0 .sarm [])
    ∧ ready.tables.parameters.attention = 1
    ∧ ((releasing .offered).armed = true
      ∧ ((releasing .offered).shipments.filter fun r => decide (r.offer = .offered)).length = 1)
    ∧ { releasing .offered with armed := false }.armed = false := by
  refine ⟨⟨floor _ _ rfl rfl rfl, ?_⟩, ⟨floor _ _ rfl rfl rfl, ?_⟩,
    ⟨floor _ _ rfl rfl rfl, floor _ _ rfl rfl rfl⟩, ?_⟩ <;> decide +kernel

/-- Lot 6001 is SAMPLING 32 units, with QRES of `r` rejects in service. -/
def sampling (r : Nat) : State :=
  asking (withLot ready { doneLot 6001 .sampling 100 with sampleSize := some 32, samplePending := true }) 1 .qres 0
    (be32 6001 ++ be 2 32 ++ be 2 r)

theorem witness_SampleResultAndRelease :
    ((sampling 1).Asks 1 .qres (be32 6001 ++ be 2 32 ++ be 2 1)
      ∧ (sampling 2).Asks 1 .qres (be32 6001 ++ be 2 32 ++ be 2 2)
      ∧ (sampling 1).lot 6001
        = some { doneLot 6001 .sampling 100 with sampleSize := some 32, samplePending := true }
      ∧ 1 ≤ product.acceptNumber ∧ product.acceptNumber < 2)
    ∧ ({ doneLot 6001 .sampling 100 with holdCount := 1 }.holdCount ≠ 0
      ∧ { doneLot 6001 .sampling 100 with sampleSize := some 33 }.sampleSize ≠ some 32)
    ∧ ((asking (withLot ready (doneLot 6001 .accepted 100)) 1 .rlse 0 (be32 6001)).Asks 1 .rlse (be32 6001)
      ∧ (asking (withLot ready (doneLot 6001 .accepted 100)) 1 .rlse 0 (be32 6001)).lot 6001
        = some (doneLot 6001 .accepted 100))
    ∧ 32 ≤ (List.replicate 32 (shipped .offered)).length ∧ ready.clock.releaseGate ≠ .closed := by
  refine ⟨⟨station _ _ rfl rfl rfl, station _ _ rfl rfl rfl, ?_⟩, ?_, ⟨station _ _ rfl rfl rfl, ?_⟩, ?_⟩ <;>
    decide +kernel

/-! ### Clock and configuration -/

/-- Parameters that change the aging step and the period. -/
def otherParameters : Parameters := { Parameters.default with agingStep := 0, period := 59 }

theorem witness_ClockParametersAndWindows :
    (asking ready 0 .clks 0 [0x00]).Asks 0 .clks [0x00]
    ∧ (let b := (0x01 : Byte) :: be 2 1439; (asking ready 0 .clks 0 b).Asks 0 .clks b)
    ∧ (let b := (0x01 : Byte) :: be 2 1440; (asking ready 0 .clks 0 b).Asks 0 .clks b)
    ∧ ready.tables.parameters.period = 1439
    ∧ (otherParameters.InRange ∧ (asking ready 0 .wpar 0 otherParameters.bytes).Asks 0 .wpar otherParameters.bytes
      ∧ ready.tables.parameters.agingStep ≠ otherParameters.agingStep
      ∧ ready.tables.parameters.period ≠ otherParameters.period)
    ∧ (Parameters.default.InRange
      ∧ (asking ready 0 .wpar 0 Parameters.default.bytes).Asks 0 .wpar Parameters.default.bytes)
    ∧ (let b := num1 (3 : Fin 4) ++ (⟨.release, 1439, 0⟩ : Window).bytes; (asking ready 0 .wwin 0 b).Asks 0 .wwin b)
    ∧ (let b := num1 (3 : Fin 4) ++ (⟨.release, 1440, 0⟩ : Window).bytes; (asking ready 0 .wwin 0 b).Asks 0 .wwin b)
    ∧ (let b := num1 (3 : Fin 4) ++ (⟨.release, 0, 1440⟩ : Window).bytes;
      (asking ready 0 .wwin 0 b).Asks 0 .wwin b) := by
  have range (m : Parameters) (h : m = otherParameters ∨ m = Parameters.default) : m.InRange := by
    rcases h with rfl | rfl <;> refine ⟨.inr (by decide), by decide, by decide, by decide, by decide, by decide,
      by decide, by decide, by decide, by decide, by decide, by decide, by decide, by decide, ?_⟩ <;>
      intro m h <;> cases h
  exact ⟨floor _ _ rfl rfl rfl, floor _ _ rfl rfl rfl, floor _ _ rfl rfl rfl, by decide +kernel,
    ⟨range _ (.inl rfl), floor _ _ rfl rfl rfl, by decide +kernel, by decide +kernel⟩,
    ⟨range _ (.inr rfl), floor _ _ rfl rfl rfl⟩, floor _ _ rfl rfl rfl, floor _ _ rfl rfl rfl,
    floor _ _ rfl rfl rfl⟩

theorem inRange_product : product.InRange := by
  have defined : product.defined = true := rfl
  rw [Product.InRange, if_pos defined]
  decide +kernel

theorem inRange_plan : plan.InRange := by
  show ∀ b : Fin 16, plan[b].limit ≤ 10000
  decide +kernel

theorem witness_TablesWrittenAndDeclaredReady :
    (product.InRange ∧ (let b := num1 (31 : Fin 32) ++ product.bytes; (asking ready 0 .wprd 0 b).Asks 0 .wprd b)
      ∧ (∃ b : Fin 16, (ready.tables.plans[(1 : Fin 8)])[b].cls = .pass)
      ∧ ¬∃ b : Fin 16, (ready.tables.plans[(2 : Fin 8)])[b].cls = .pass)
    ∧ (∃ l ∈ (withLot ready (lot 6001 100)).lots, l.product = 3)
    ∧ (plan.InRange ∧ (let b := num1 (7 : Fin 8) ++ plan.bytes; (asking ready 0 .wbpl 0 b).Asks 0 .wbpl b)
      ∧ (∃ l ∈ (withLot ready (lot 6001 100)).lots, (ready.tables.products[l.product]).plan = 1)
      ∧ ((ready.tables.products[(3 : Fin 32)]).defined = true ∧ (ready.tables.products[(3 : Fin 32)]).plan = 1))
    ∧ ((asking ready 0 .crdy 0 []).Asks 0 .crdy []
      ∧ ∀ i : Fin 32, (ready.tables.products[i]).defined = true → i = 3) := by
  refine ⟨⟨inRange_product, floor _ _ rfl rfl rfl, ?_⟩, ?_, ⟨inRange_plan, floor _ _ rfl rfl rfl, ?_⟩,
    floor _ _ rfl rfl rfl, ?_⟩ <;> decide +kernel

/-! ### Requests of the equipment -/

/-- A request of the handler, of the tester, of cell 4 in this state. -/
def handlerAsk (s : State) (r : Req) (payload : List Byte) : State := asking s 2 r 101 payload
def testerAsk (s : State) (r : Req) (payload : List Byte) : State := asking s 3 r 202 payload

theorem handler_sends {s : State} (r : Req) (payload : List Byte) (quiet : s.due = [])
    (configured : s.configState = .configured) (permitted : r.permitted 2 = true) (found : s.find 101 = some (0, hand)) :
    (handlerAsk s r payload).Sends 2 r 101 payload 0 hand :=
  sends_asking 2 r 101 payload 0 hand quiet (by rw [configured]; decide) rfl permitted (by decide) found rfl

theorem tester_sends {s : State} (r : Req) (payload : List Byte) (quiet : s.due = [])
    (configured : s.configState = .configured) (permitted : r.permitted 3 = true) (found : s.find 202 = some (1, test)) :
    (testerAsk s r payload).Sends 3 r 202 payload 1 test :=
  sends_asking 3 r 202 payload 1 test quiet (by rw [configured]; decide) rfl permitted (by decide) found rfl

/-- EANN of handler 101 in service on port 2. -/
def announcing (s : State) : State := asking s 2 .eann 101 hand.ability.announced

theorem inRange_hand : hand.ability.InRange := by
  show _ ∧ _ ∧ _ ∧ _ ∧ _ ∧ _
  decide +kernel

theorem inRange_test : test.ability.InRange := by
  show (0x07 : SiteSet) ≠ 0
  decide

theorem witness_AnnouncementMakesOrRenewsEntry :
    hand.ability.InRange
    ∧ ((announcing ready).Speaks 2 .eann 101 hand.ability.announced ∧ (announcing ready).find 101 = none
      ∧ (announcing ready).entry 0 = none ∧ (announcing ready).portCount 2 < 4)
    ∧ ((announcing (equipped ready (some 4))).Speaks 2 .eann 101 hand.ability.announced
      ∧ (announcing (equipped ready (some 4))).find 101 = some (0, hand) ∧ hand.port = 2)
    ∧ 4 ≤ (asking crowded 3 .eann 909 test.ability.announced).portCount 3
    ∧ (asking crowded 3 .eann 909 test.ability.announced).find 909 = none
    ∧ (asking (equipped ready none) 2 .eann 101 test.ability.announced).Speaks 2 .eann 101 test.ability.announced
    ∧ hand.ability.kind ≠ test.ability.kind := by
  refine ⟨inRange_hand, ⟨⟨rfl, by decide, rfl, rfl, by decide, inService_asking _ _ _ _ _⟩, ?_⟩,
    ⟨⟨rfl, by decide, rfl, rfl, by decide, inService_asking _ _ _ _ _⟩, ?_⟩, ?_, ?_,
    ⟨rfl, by decide, rfl, rfl, by decide, inService_asking _ _ _ _ _⟩, ?_⟩ <;> decide +kernel

/-- The payloads of an EABL of either member, and of an ECNF. -/
def report (e : Entry) : List Byte := num1 (4 : CellNo) ++ e.ability.announced
def echo : List Byte := num1 (4 : CellNo) ++ cap.bytes

theorem inRange_cap : cap.InRange := by
  show _ ∧ _ ∧ _ ∧ _ ∧ _
  decide

theorem witness_NegotiationReportsAndAcceptances :
    (hand.ability.InRange ∧ test.ability.InRange ∧ cap.InRange)
    ∧ ((testerAsk (negotiating .offer asked) .eabl (report test)).Sends 3 .eabl 202 (report test) 1 test
      ∧ (let s := testerAsk (negotiating .offer asked) .eabl (report test);
        (s.cell 4).tester = some 202 ∧ (s.cell 4).state = .offer ∧ (s.cell 4).negotiation = some asked
          ∧ { asked with testerReported := true }.handlerReported = true))
    ∧ ((handlerAsk (negotiating .offer { asked with handlerReported := false }) .eabl (report hand)).Sends 2 .eabl
      101 (report hand) 0 hand)
    ∧ ((handlerAsk (negotiating .confirm proposed) .eabl (report hand)).Sends 2 .eabl 101 (report hand) 0 hand
      ∧ (handlerAsk (negotiating .confirm proposed) .eabl (report hand)).handlerAbility 4
        = some ⟨0x0004, -40, 125, 0x0F, 5⟩
      ∧ (handlerAsk (negotiating .confirm proposed) .eabl (report hand)).testerAbility 4
        = some ⟨0x07, 0x0003, 900⟩
      ∧ (0x0F &&& 0x07 : SiteSet) ≠ 0 ∧ (0x08 &&& 0x07 : SiteSet) = 0)
    ∧ ((handlerAsk (paired (cellIn .idle)) .eabl (report hand)).Sends 2 .eabl 101 (report hand) 0 hand)
    ∧ ((handlerAsk (equipped ready (some 4)) .eabl (report hand)).cell 4).handler ≠ some 101
    ∧ ((handlerAsk (negotiating .confirm proposed) .ecnf echo).Sends 2 .ecnf 101 echo 0 hand
      ∧ (let s := handlerAsk (negotiating .confirm proposed) .ecnf echo;
        (s.cell 4).handler = some 101 ∧ (s.cell 4).state = .confirm ∧ (s.cell 4).negotiation = some proposed
          ∧ proposed.proposed = some cap ∧ proposed.proposed ≠ some { cap with kit := 6 }
          ∧ ¬{ proposed with handlerAccepted := true }.testerAccepted = true))
    ∧ (let n := { proposed with testerAccepted := true };
      (handlerAsk (negotiating .confirm n) .ecnf echo).Sends 2 .ecnf 101 echo 0 hand
        ∧ { n with handlerAccepted := true }.testerAccepted = true)
    ∧ (((negotiating .confirm proposed).cell 4).bound = none
      ∧ (bound (cellIn .confirm) 100).boundLot 4 = some { lot 6001 100 with state := .bound, cell := some 4 }
      ∧ cap.families.getLsbD product.family.val = true ∧ cap.bandMin ≤ product.setPoint
      ∧ product.setPoint ≤ cap.bandMax ∧ product.kit = cap.kit ∧ product.options &&& cap.options = product.options
      ∧ (bound { cellIn .confirm with mode := .engineering } 100).boundLot 4
        = some { lot 6001 100 with state := .bound, cell := some 4 }) := by
  refine ⟨⟨inRange_hand, inRange_test, inRange_cap⟩, ⟨tester_sends _ _ rfl rfl rfl ?_, ?_⟩,
    handler_sends _ _ rfl rfl rfl ?_, ⟨handler_sends _ _ rfl rfl rfl ?_, ?_⟩, handler_sends _ _ rfl rfl rfl ?_, ?_,
    ⟨handler_sends _ _ rfl rfl rfl ?_, ?_⟩, ⟨handler_sends _ _ rfl rfl rfl ?_, ?_⟩, ?_⟩ <;> decide +kernel

/-- The payload of EPLD or ELDF for cell 4. -/
def loaded (program : Id) : List Byte := num1 (4 : CellNo) ++ be32 program

theorem witness_PreparationReports :
    (let s := preparing ⟨.pending, some 9, .soaking, none⟩ 0 none;
      (testerAsk s .epld (loaded 900)).Sends 3 .epld 202 (loaded 900) 1 test
        ∧ (testerAsk s .epld (loaded 901)).Sends 3 .epld 202 (loaded 901) 1 test
        ∧ (testerAsk s .eldf (loaded 900)).Sends 3 .eldf 202 (loaded 900) 1 test
        ∧ (s.cell 4).tester = some 202 ∧ (s.cell 4).loadRequest = some 900 ∧ (s.cell 4).state = .preparing
        ∧ (s.cell 4).preparation = some ⟨.pending, some 9, .soaking, none⟩
        ∧ test.ability = .tester ⟨0x07, 0x0003, 900⟩
        ∧ s.boundLot 4 = some { lot 6001 100 with state := .bound, cell := some 4 })
    ∧ ((testerAsk (paired (cellIn .idle)) .epld (loaded 900)).Sends 3 .epld 202 (loaded 900) 1 test
      ∧ ((paired (cellIn .idle)).cell 4).loadRequest = none)
    ∧ ((paired { cellIn .idle with loadRequest := some 900 }).cell 4).state ≠ .preparing
    ∧ (handlerAsk (paired (cellIn .idle)) .epld (loaded 900)).Sends 2 .epld 101 (loaded 900) 0 hand
    ∧ (let b := num1 (4 : CellNo) ++ temperature 85;
      let q : Preparation := ⟨.pending, some 9, .settling, some 9⟩;
      let x := { cellIn .preparing with preparation := some q, thermal := ⟨some 85, false, 0⟩ };
      (handlerAsk (bound x 100) .etmp b).Sends 2 .etmp 101 b 0 hand
        ∧ ((bound x 100).cell 4).handler = some 101 ∧ ((bound x 100).cell 4).thermal.setPoint = some 85
        ∧ ((bound x 100).cell 4).preparation = some q
        ∧ (bound x 100).boundLot 4 = some { lot 6001 100 with state := .bound, cell := some 4 }
        ∧ product.soakTime ≠ 0)
    ∧ (let b := num1 (4 : CellNo) ++ temperature (-60);
      (handlerAsk (paired { cellIn .idle with thermal := ⟨some (-60), true, 7⟩ }) .etmp b).Sends 2 .etmp 101 b 0 hand
        ∧ (-60 : Int) ≤ -60 ∧ ((200 : Int) ≤ 200))
    ∧ (testerAsk (paired (cellIn .idle)) .etmp (num1 (4 : CellNo) ++ temperature 200)).Sends 3 .etmp 202
      (num1 (4 : CellNo) ++ temperature 200) 1 test := by
  refine ⟨⟨tester_sends _ _ rfl rfl rfl ?_, tester_sends _ _ rfl rfl rfl ?_, tester_sends _ _ rfl rfl rfl ?_, ?_⟩,
    ⟨tester_sends _ _ rfl rfl rfl ?_, ?_⟩, ?_, handler_sends _ _ rfl rfl rfl ?_,
    ⟨handler_sends _ _ rfl rfl rfl ?_, ?_⟩, ⟨handler_sends _ _ rfl rfl rfl ?_, ?_⟩,
    tester_sends _ _ rfl rfl rfl ?_⟩ <;> decide +kernel

/-- ERND of cell 4 after `n` units. -/
def ended (n : Nat) (reason : EndReason) : ErndFields := ⟨4, 1, n, reason⟩

theorem witness_RunEndClosesOrAwaitsResults :
    ((ended 100 .exhausted).InRange
      ∧ (handlerAsk (running .running 100) .ernd (ended 100 .exhausted).bytes).Sends 2 .ernd 101
        (ended 100 .exhausted).bytes 0 hand
      ∧ ((running .running 100).cell 4).handler = some 101 ∧ ((running .running 100).cell 4).run = some run1
      ∧ run1.number.toNat = (ended 100 .exhausted).run ∧ run1.binned < 100)
    ∧ ((ended 0 .exhausted).InRange ∧ run1.binned = 0 ∧ 0 < { run1 with binned := 1 }.binned)
    ∧ ((ended 0 .stopped).InRange ∧ run1.stopFlag = false
      ∧ (handlerAsk (bound { cellIn .stopping with run := some { run1 with stopFlag := true } } 100) .ernd
        (ended 0 .stopped).bytes).Sends 2 .ernd 101 (ended 0 .stopped).bytes 0 hand)
    ∧ ((running .closing 100).cell 4).state = .closing ∧ ((paired (cellIn .idle)).cell 4).run = none
    ∧ run1.number.toNat ≠ 2
    ∧ (testerAsk (running .running 100) .ernd (ended 0 .exhausted).bytes).Sends 3 .ernd 202
      (ended 0 .exhausted).bytes 1 test
    ∧ (let r := { run1 with binned := 5, handlerCount := some 5, endReason := some EndReason.exhausted };
      let s := bound { cellIn .closing with run := some r } 100;
      (s.cell 4).state = .closing ∧ (s.cell 4).run = some r ∧ r.binned < 6 ∧ r.binned = 5 ∧ 4 < r.binned) := by
  refine ⟨⟨⟨by decide, by decide⟩, handler_sends _ _ rfl rfl rfl ?_, ?_⟩, ⟨⟨by decide, by decide⟩, ?_⟩,
    ⟨⟨by decide, by decide⟩, ?_, handler_sends _ _ rfl rfl rfl ?_⟩, ?_, ?_, ?_, tester_sends _ _ rfl rfl rfl ?_, ?_⟩ <;>
    decide +kernel

/-! ### Results -/

/-- One unit of site 2 in bin 1, of the first pass or drawn from bin 5. -/
def unit : BinEntry := { site := 2, bin := 1, again := 0, origin := none, clean := true }
def drawn : BinEntry := { unit with origin := some 5 }

def result (entries : List BinEntry) : EbinFields := ⟨6001, 1, entries⟩

theorem inRange_result (b : BinEntry) (h : b = unit ∨ b = drawn) : (result [b]).InRange := by
  refine ⟨show (6001 : Id) ≠ 0 by decide, show 1 ≤ 65535 by decide, show 1 ≤ 1 by decide, show 1 ≤ 120 by decide,
    fun e m => ?_⟩
  rw [List.eq_of_mem_singleton m]
  rcases h with rfl | rfl <;> decide

/-- An entry whose third byte has a reserved bit set, and the payload of a message with it. -/
def unclean : BinEntry := { drawn with clean := false }
def dirty : List Byte := be32 6001 ++ be 2 1 ++ be 1 1 ++ unclean.wire ⟨false, 8⟩

theorem witness_ResultMessageValidatedAndApplied :
    (readEbin (result [unit]).bytes = .ok (result [unit])
      ∧ (testerAsk (running .running 100) .ebin (result [unit]).bytes).Sends 3 .ebin 202 (result [unit]).bytes 1 test
      ∧ (running .running 100).lot 6001 = some { lot 6001 100 with state := .bound, cell := some 4 }
      ∧ ((running .running 100).cell 4).tester = some 202 ∧ ((running .running 100).cell 4).run = some run1
      ∧ run1.number.toNat = (result [unit]).run ∧ run1.sites.getLsbD unit.site.val = true ∧ run1.pass = 0
      ∧ unit.origin = none ∧ unit.clean = true)
    ∧ (readEbin (result [{ unit with site := 3 }]).bytes = .ok (result [{ unit with site := 3 }])
      ∧ run1.sites.getLsbD (3 : Fin 8).val = false)
    ∧ (readEbin (result [drawn]).bytes = .ok (result [drawn]) ∧ drawn.origin = some 5
      ∧ plan[(5 : Fin 16)].cls = .retest)
    ∧ (readEbin dirty = .ok (result [unclean])
      ∧ (testerAsk (running .running 100) .ebin dirty).Sends 3 .ebin 202 dirty 1 test)
    ∧ run1.number.toNat ≠ 2 ∧ ((bound (cellIn .paused) 100).cell 4).run = none
    ∧ (lot 6001 100).state ≠ .bound
    ∧ (testerAsk (withLot (paired (cellIn .idle)) (lot 6001 100)) .ebin (result [unit]).bytes).Sends 3 .ebin 202
      (result [unit]).bytes 1 test
    ∧ (testerAsk (paired (cellIn .idle)) .ebin (result [unit]).bytes).lot 6001 = none := by
  refine ⟨⟨rfl, tester_sends _ _ rfl rfl rfl ?_, ?_⟩, ⟨rfl, ?_⟩, ⟨rfl, ?_⟩, ⟨rfl, tester_sends _ _ rfl rfl rfl ?_⟩,
    ?_, ?_, ?_, tester_sends _ _ rfl rfl rfl ?_, ?_⟩ <;> decide +kernel

theorem witness_UnitsCountedOrExcluded :
    (run1.pass = 0 ∧ unit.origin = none ∧ (lot 6001 100).tested + (lot 6001 100).lost < (lot 6001 100).started
      ∧ (doneLot 6001 .bound 100).started ≤ (doneLot 6001 .bound 100).tested + (doneLot 6001 .bound 100).lost)
    ∧ ({ run1 with pass := 1 }.pass ≠ 0 ∧ drawn.origin = some 5 ∧ 0 < { lot 6001 100 with poolNow := two }.poolNow[(5 : Fin 16)]
      ∧ (lot 6001 100).poolNow[(5 : Fin 16)] = 0)
    ∧ unit.again = 0 ∧ { unit with again := 127 }.again = 126 + 1 := by decide +kernel

theorem witness_YieldAndBinRatiosChecked :
    (let l := { lot 6001 100 with tested := 100, final := good 100 };
      (withLot ready l).lot 6001 = some l ∧ product.guard ≤ l.tested ∧ l.final.toList.sum ≠ 0
        ∧ product.yieldMin ≤ 10000 * 100 / l.final.toList.sum ∧ l.tested ≠ 0)
    ∧ (lot 6001 100).tested < product.guard ∧ (lot 6001 100).final.toList.sum = 0 ∧ (lot 6001 100).tested = 0
    ∧ 10000 * 89 / 100 < product.yieldMin
    ∧ (plan[(9 : Fin 16)].limit < 10000 ∧ (10000 * 1 + 100 - 1) / 100 ≤ plan[(9 : Fin 16)].limit
      ∧ plan[(9 : Fin 16)].limit < (10000 * 2 + 100 - 1) / 100 ∧ plan[(8 : Fin 16)].limit = 10000) := by
  decide +kernel

/-- Run 1 with its sites' counts: site 0 the best, site 1 below it. -/
def sited (below : Nat) : Run :=
  { run1 with counts := ((Vector.replicate 8 (⟨0, 0⟩ : SiteCount)).set 0 ⟨100, 100⟩).set 1 ⟨100, 100 - below⟩ }

theorem witness_LowSiteLeavesActiveSet :
    (let s := bound { cellIn .running with run := some (sited 6) } 1000;
      s.lot 6001 = some { lot 6001 1000 with state := .bound, cell := some 4 }
        ∧ (s.cell 4).run = some (sited 6) ∧ (sited 6).pass = 0
        ∧ (∀ n : Fin 8, (sited 6).sites.getLsbD n.val = true ∧ product.siteGuard ≤ (sited 6).counts[n].seen
            ↔ n = 0 ∨ n = 1)
        ∧ product.siteLimit
          < 10000 * (sited 6).counts[(0 : Fin 8)].passed / (sited 6).counts[(0 : Fin 8)].seen
            - 10000 * (sited 6).counts[(1 : Fin 8)].passed / (sited 6).counts[(1 : Fin 8)].seen)
    ∧ 10000 * (sited 5).counts[(0 : Fin 8)].passed / (sited 5).counts[(0 : Fin 8)].seen
        - 10000 * (sited 5).counts[(1 : Fin 8)].passed / (sited 5).counts[(1 : Fin 8)].seen ≤ product.siteLimit
    ∧ { run1 with pass := 1 }.pass ≠ 0
    ∧ ∀ n : Fin 8, ¬(product.siteGuard ≤ run1.counts[n].seen) := by decide +kernel

theorem witness_SampleDecidedByFourSteps :
    (let l := doneLot 6001 .tested 100;
      (withLot ready l).lot 6001 = some l ∧ l.state = .tested ∧ l.holdCount = 0 ∧ l.overflow = false
        ∧ product.samplePermille ≠ 0 ∧ product.sampleMin ≤ 100)
    ∧ ¬(lot 6001 100).state = .tested ∧ (doneLot 6001 .tested 0).final.toList.sum = 0 := by decide +kernel

/-! ### The invariants, and the payloads -/

/-- A part in the middle of its work, with a command waiting: lot 6001 BOUND and held, lot 6002 released, lot 6003
in the dispatch queue. -/
def busy : State :=
  { bound { cellIn .paused with run := none } 100 with
    lots := [{ lot 6001 100 with state := .bound, cell := some 4, holdCount := 1 },
      { doneLot 6002 .released 50 with sampleSize := some 32 }, lot 6003 20]
    queue := [⟨6003, 3⟩]
    holds := [held .operator 7]
    shipments := [{ shipped .offered with lot := 6002 }]
    pending := [.secondsTick] }

theorem witness_step : Sys2Proof.Machine.step busy = exec .secondsTick { busy with pending := [] } := rfl

theorem witness_PortLimitsKept : busy.PortsSound := by
  intro p
  have unit : busy.port p = PortUnit.reset := by revert p; decide +kernel
  rw [unit]
  refine ⟨trivial, ?_, ?_, ?_, ?_, ?_, ?_, ?_⟩ <;> revert p <;> decide +kernel

theorem witness_LotAccountsKept : busy.LotsSound := by
  refine ⟨by decide +kernel, by decide +kernel, fun l m => ?_⟩
  rcases List.mem_cons.mp m with rfl | m
  · exact ⟨by decide +kernel, by decide +kernel, by decide +kernel, by decide +kernel, by decide +kernel⟩
  rcases List.mem_cons.mp m with rfl | m
  · exact ⟨by decide +kernel, by decide +kernel, by decide +kernel, by decide +kernel, by decide +kernel⟩
  · rw [List.eq_of_mem_singleton m]
    exact ⟨by decide +kernel, by decide +kernel, by decide +kernel, by decide +kernel, by decide +kernel⟩

theorem witness_HoldCountsKept : busy.HoldsSound :=
  ⟨by decide +kernel, by decide +kernel, by decide +kernel, by decide +kernel⟩

theorem busy_cells (c : CellNo) (x : Cell) (h : busy.cell c = x) :
    x = { cellIn .paused with bound := some 6001 } ∨ x = Cell.vacant := by
  subst h; revert c; decide +kernel

theorem sound_paused : Cell.Sound { cellIn .paused with bound := some 6001 } := by
  refine ⟨?_, ?_, ?_, (fun _ h => nomatch h), ?_, ?_, (fun _ h => nomatch h), ?_, ?_, ?_, ?_, ?_⟩ <;> decide +kernel

theorem sound_vacant : Cell.Sound Cell.vacant := by
  refine ⟨?_, ?_, ?_, (fun _ h => nomatch h), ?_, ?_, (fun _ h => nomatch h), ?_, ?_, ?_, ?_, ?_⟩ <;> decide +kernel

theorem sound_busy_binding : busy.BindingSound := by
  refine ⟨fun c => ?_, by decide +kernel, by decide +kernel, fun c id h => ?_, by decide +kernel, by decide +kernel⟩
  · rcases busy_cells c _ rfl with h | h <;> rw [h]
    · exact sound_paused
    · exact sound_vacant
  · have at4 : c = 4 ∧ id = 6001 := by
      rcases busy_cells c _ rfl with hc | hc <;> rw [hc] at h
      · refine ⟨?_, (Option.some.inj h).symm⟩
        revert hc; revert c; decide +kernel
      · exact nomatch h
    obtain ⟨rfl, rfl⟩ := at4
    decide +kernel

theorem sound_busy_release : busy.ReleaseSound := by
  refine ⟨by decide +kernel, by decide +kernel, by decide +kernel, fun id => ⟨?_, ?_⟩, by decide +kernel⟩
  · rintro ⟨r, m, rfl⟩
    rw [List.eq_of_mem_singleton m]
    decide +kernel
  · rintro ⟨l, m, rfl, h⟩
    exact (by decide +kernel : ∀ l ∈ busy.lots, l.state = .released → ∃ r ∈ busy.shipments, r.lot = l.id) l m h

theorem sound_busy_queue : busy.QueueSound := by
  refine ⟨by decide +kernel, fun id => ⟨?_, ?_⟩⟩
  · rintro ⟨w, m, rfl⟩
    rw [List.eq_of_mem_singleton m]
    decide +kernel
  · rintro ⟨l, m, rfl, h⟩
    exact (by decide +kernel : ∀ l ∈ busy.lots, l.state = .waiting ∧ l.unheld = true →
      ∃ w ∈ busy.queue, w.lot = l.id) l m h

theorem busy_entries (i : Position) (e : Entry) (h : busy.entry i = some e) :
    (i = 0 ∧ e = hand) ∨ (i = 1 ∧ e = test) := by
  have all : ∀ i : Position, busy.entry i = none ∨ (i = 0 ∧ busy.entry i = some hand)
      ∨ (i = 1 ∧ busy.entry i = some test) := by decide +kernel
  rcases all i with n | ⟨rfl, s⟩ | ⟨rfl, s⟩
  · rw [n] at h; cases h
  · rw [s] at h; exact .inl ⟨rfl, (Option.some.inj h).symm⟩
  · rw [s] at h; exact .inr ⟨rfl, (Option.some.inj h).symm⟩

theorem sound_busy_equipment : busy.EquipmentSound := by
  refine ⟨fun i j e f hi hj same => ?_, fun i e h => ?_, by decide +kernel, fun c id h => ?_, fun c id h => ?_,
    fun i e c h m => ?_⟩
  · rcases busy_entries i e hi with ⟨rfl, rfl⟩ | ⟨rfl, rfl⟩ <;> rcases busy_entries j f hj with ⟨rfl, rfl⟩ | ⟨rfl, rfl⟩ <;>
      first | rfl | exact absurd same (by decide)
  · rcases busy_entries i e h with ⟨rfl, rfl⟩ | ⟨rfl, rfl⟩ <;> decide +kernel
  · have at4 : c = 4 ∧ id = 101 := by
      rcases busy_cells c _ rfl with hc | hc <;> rw [hc] at h
      · refine ⟨?_, (Option.some.inj h).symm⟩
        revert hc; revert c; decide +kernel
      · exact nomatch h
    obtain ⟨rfl, rfl⟩ := at4
    exact ⟨0, hand, by decide +kernel⟩
  · have at4 : c = 4 ∧ id = 202 := by
      rcases busy_cells c _ rfl with hc | hc <;> rw [hc] at h
      · refine ⟨?_, (Option.some.inj h).symm⟩
        revert hc; revert c; decide +kernel
      · exact nomatch h
    obtain ⟨rfl, rfl⟩ := at4
    exact ⟨1, test, by decide +kernel⟩
  · rcases busy_entries i e h with ⟨rfl, rfl⟩ | ⟨rfl, rfl⟩ <;> cases Option.some.inj m <;> decide +kernel

/-- The busy part meets every invariant, each headline's premise. -/
theorem witness_ReleaseQueueKept : busy.Sound :=
  ⟨witness_PortLimitsKept, witness_LotAccountsKept, witness_HoldCountsKept, sound_busy_release, sound_busy_queue,
    sound_busy_binding, sound_busy_equipment, ⟨by decide +kernel, by decide +kernel⟩⟩

theorem witness_DispatchQueueKept : busy.Sound := witness_ReleaseQueueKept
theorem witness_BindingOfLotsAndCellsKept : busy.Sound := witness_ReleaseQueueKept
theorem witness_EquipmentTableAndClockKept : busy.Sound := witness_ReleaseQueueKept

theorem witness_RecordsChangeOnlyByTheirCommands :
    (asking queued 0 .lpri 0 (be32 6001 ++ be 1 7)).Quiet
    ∧ (let t := after (.lpri 0) (asking queued 0 .lpri 0 (be32 6001 ++ be 1 7));
      (t.lot 6001).map Lot.basePriority = some 7) := by
  refine ⟨rfl, ?_⟩
  decide +kernel

theorem witness_RequestPayloadsReadBack :
    lentPlain.InRange ∧ (lentWith (part 98 two)).InRange ∧ (⟨6001, .operator, 65535, .none⟩ : HclrFields).InRange
    ∧ product.InRange ∧ Product.undefined.InRange ∧ plan.InRange ∧ Parameters.default.InRange
    ∧ hand.ability.InRange ∧ test.ability.InRange ∧ cap.InRange ∧ (ended 65535 .stopped).InRange
    ∧ (result [drawn]).InRange
    ∧ ((unclean.again ≤ 127 ∧ (unclean.clean = true ↔ (⟨false, 8⟩ : Reserved).second = false
        ∧ (unclean.origin = none ∨ (⟨false, 8⟩ : Reserved).third = 0)))) := by
  refine ⟨inRange_lentPlain, inRange_lentWith (inRange_part (by decide) _ (by decide +kernel)),
    ⟨by decide, by decide, by decide, .inl rfl⟩, inRange_product, rfl, inRange_plan, ?_, inRange_hand, inRange_test,
    inRange_cap, ⟨by decide, by decide⟩, inRange_result _ (.inr rfl), by decide⟩
  exact ⟨.inr (by decide), by decide, by decide, by decide, by decide, by decide, by decide, by decide, by decide,
    by decide, by decide, by decide, by decide, by decide, fun m h => nomatch h⟩

/-! ## One step, with the result that the spec's text gives -/

/-- Status byte, sense code and argument of the response on a port. -/
abbrev refused (t : State) (p : Port) (code : SenseCode) (a : Nat) : Prop :=
  response t p = some (0x02 :: code.byte :: be32 (BitVec.ofNat 32 a))

/-! ### Links (chapter 1, 12.1) -/

-- R4: the check value known for this generator, start value and bit order, over the digits 1 to 9 (not in spec/)
theorem test_crc16 : crc16 [0x31, 0x32, 0x33, 0x34, 0x35, 0x36, 0x37, 0x38, 0x39] = 0x29B1 := by decide +kernel

-- 1.5, example "a burst on port 0": G at depth 6 sets the flag and HOFF; J finds 8 waiting
theorem test_burst_holds_off :
    (let u := (List.range 6).foldl (fun u n => u.join ⟨0x25, BitVec.ofNat 8 n, 0, []⟩)
        { PortUnit.reset with service := some ⟨⟨0x1B, 0, 0, []⟩, 0, .waiting⟩ };
      u.intake.length = 6 ∧ u.holdOff = true ∧ u.flow = some .hoff) := by decide +kernel

theorem test_burst_overruns :
    (let u := (List.range 9).foldl (fun u n => u.join ⟨0x25, BitVec.ofNat 8 n, 0, []⟩)
        { PortUnit.reset with service := some ⟨⟨0x1B, 0, 0, []⟩, 0, .waiting⟩ };
      u.intake.length = 8 ∧ u.overruns = 1 ∧ u.overrunLatch = true) := by decide +kernel

-- the same example's last row: at depth 2 the flag clears and RSUM goes out first
theorem test_burst_resumes :
    (let t := after (.frameSent 0) (ready.setPort 0
        { PortUnit.reset with
          intake := [⟨0x25, 1, 0, []⟩, ⟨0x25, 2, 0, []⟩, ⟨0x25, 3, 0, []⟩], holdOff := true
          service := some ⟨⟨0x25, 0, 0, []⟩, 3, .answered [0x00]⟩, line := some ⟨.response, []⟩ });
      (t.port 0).holdOff = false ∧ (t.port 0).intake.length = 2
        ∧ (t.port 0).line.map Line.use = some .flow) := by decide +kernel

-- R19: the RSUM of a FLOOR RESET goes out before the BUSY of a request that came after it, which then follows
theorem test_resume_first :
    (let t := after (.frameSent 2) (ready.setPort 2 afterReset);
      (t.port 2).line = some ⟨.flow, Flow.rsum.bytes⟩ ∧ (t.port 2).flow = none
        ∧ ((after (.frameSent 2) t).port 2).line.map Line.use = some .response) := by decide +kernel

-- R2: a length byte below 6
theorem test_short_length :
    (let t := after (.lengthBelow6 0 0x05) (ready.setPort 0 { PortUnit.reset with receiver := .header });
      (t.port 0).receiver = .hunting ∧ (t.port 0).crcErrors = 1) := by decide +kernel

-- R3 and R17: an aborted frame counts
theorem test_gap_abort :
    ((after (.gapAbort 9) (ready.setPort 9 { PortUnit.reset with receiver := .synced })).port 9).gapAborts = 1 := by
  decide +kernel

-- R11, R12, 12.2: SENS answers the code, the argument and the mnemonic
theorem test_sens :
    response (after (.sens 0) ((asking ready 0 .sens 0 []).setPort 0
      { (asking ready 0 .sens 0 []).port 0 with sense := ⟨.unknownLot, 81, some .lrem⟩ })) 0
    = some [0x00, 0x03, 0, 0, 0, 81, 0x4C, 0x52, 0x45, 0x4D] := by decide +kernel

-- R17, 12.2: overrun latch and hold-off flag are bits 0 and 2
theorem test_psta :
    response (after (.psta 0) ((asking ready 0 .psta 0 []).setPort 0
      { (asking ready 0 .psta 0 []).port 0 with overrunLatch := true, holdOff := true, overruns := 1 })) 0
    = some [0x00, 0x00, 0x05, 0, 0, 0, 0, 0, 1] := by decide +kernel

-- R8 step 2: 27h is no request's code, and a notice's is none either
theorem test_unknown_codes : Req.ofCode 0x27 = none ∧ Req.ofCode 0x40 = none ∧ Req.ofCode 0x26 = some .psta := by
  decide

/-! ### Equipment and cells (chapters 2 and 3) -/

-- 2, example: the 120th tick makes the tester STALE, and at 119 it is PRESENT
theorem test_entry_ages :
    (after .secondsTick (aged .present 119 (some 4) .minute |> fun s => { s with due := [] })).due = [.stale 0]
    ∧ (after .secondsTick (aged .present 118 (some 4) .minute |> fun s => { s with due := [] })).due = [] := by
  decide +kernel

-- 2, example: a request on another port moves the entry, PRESENT with age 0
theorem test_port_moves :
    ((after (.psta 12) (asking (aged .stale 150 none .minute |> fun s => { s with due := [] }) 12 .psta 101 [])).entry
      0).map (fun e => (e.port, e.state, e.age)) = some (12, .present, 0) := by decide +kernel

-- 3, example "a tester restarts during a run": a CELL hold of the cell's number, detail 2
theorem test_tester_restarts :
    (let t := after (.eann 3) (testerAsk (running .running 100) .eann
        (Ability.tester ⟨0x03, 0x0003, 0⟩).announced);
      (t.cell 4).state = .offer ∧ (t.cell 4).run = none
        ∧ t.holds.map (fun h => (h.kind, h.arg, h.detail, h.source)) = [(.cell, 4, 2, some 3)]
        ∧ (t.lot 6001).map (fun l => (l.state, l.holdCount)) = some (.bound, 1)) := by decide +kernel

-- the same example: both reports make the proposal, with the common sites
theorem test_reports_propose :
    (let t := after (.eabl 3) (testerAsk (negotiating .offer asked) .eabl (report test));
      (t.cell 4).state = .confirm ∧ ((t.cell 4).negotiation.bind Negotiation.proposed) = some cap) := by
  decide +kernel

-- the same example: the second matching echo forms the cell, which has no lot
theorem test_cell_forms :
    (let t := after (.ecnf 2) (handlerAsk (negotiating .confirm { proposed with testerAccepted := true }) .ecnf echo);
      (t.cell 4).state = .idle ∧ (t.cell 4).active = 0x07 ∧ (t.cell 4).negotiation = none) := by decide +kernel

-- R41, R43: an echo that differs
theorem test_echo_differs :
    (let t := after (.ecnf 2) (handlerAsk (negotiating .confirm proposed) .ecnf
        (num1 (4 : CellNo) ++ { cap with kit := 6 }.bytes));
      (t.cell 4).fault = some .mismatch ∧ refused t 2 .inconsistent 4) := by decide +kernel

-- R45: PRODUCTION cannot follow ENGINEERING at once
theorem test_cmod_wrong_mode :
    refused (after (.cmod 0) (cellAsk { cellIn .idle with mode := .engineering } .cmod
      (num1 (4 : CellNo) ++ [Mode.production.byte]))) 0 .wrongMode 4 := by decide +kernel

-- R47: a site comes back, and only a common one
theorem test_csen :
    ((after (.csen 0) (cellAsk { cellIn .idle with active := 0x01 } .csen
      (num1 (4 : CellNo) ++ num1 (2 : Fin 8)))).cell 4).active = 0x05 := by decide +kernel

-- R52: the cell dissolves and its members are free
theorem test_cund :
    (let t := after (.cund 0) (cellAsk (cellIn .idle) .cund (num1 (4 : CellNo)));
      t.cell 4 = Cell.vacant ∧ (t.entry 0).bind Entry.membership = none
        ∧ (t.port 2).sending.map Notice.code = some 0x47) := by decide +kernel

/-! ### Lots and dispatch (chapters 4 and 5) -/

-- 4.4, example "restoring a lot after a floor reset": pass completion begins pass 1 with the pool of 25
theorem test_restored_lot :
    (let t := after (.lent 0) (entering [] (lentWith (part 100 two)));
      (t.lot 6001).map (fun l => (l.state, l.pass, l.poolNow[(5 : Fin 16)], l.poolNext[(5 : Fin 16)]))
        = some (.waiting, 1, 2, 0)
      ∧ t.queue = [⟨6001, 3⟩] ∧ response t 0 = some [0x00, 0, 0, 0, 1, 0x01, 0x01]) := by decide +kernel

-- R63: balance
theorem test_unbalanced_restore :
    refused (after (.lent 0) (entering [] (lentWith (part 99 Bins.zero)))) 0 .inconsistent 6001 := by decide +kernel

-- R67: a short count declares the units that are left lost
theorem test_short_count :
    (let t := after (.lsht 0) (about { lot 6001 100 with tested := 90, final := good 90 } true .lsht (be32 6001));
      (t.lot 6001).map (fun l => (l.lost, l.tested)) = some (10, 90) ∧ t.queue = []) := by decide +kernel

-- R65: the lot and its holds leave every list
theorem test_lot_removed :
    (let t := after (.lrem 0) ({ about { lot 6001 100 with holdCount := 1 } true .lrem (be32 6001) with
        holds := [held .operator 7] });
      t.lots = [] ∧ t.queue = [] ∧ t.holds = []) := by decide +kernel

-- 5.3, example: at 1005 the three lots wait 65, 30 and 15 minutes at a step of 30
theorem test_effective_priorities :
    [effectivePriority 30 3 65, effectivePriority 30 4 30, effectivePriority 30 5 15, effectivePriority 30 3 60,
      effectivePriority 30 5 10, effectivePriority 30 4 25] = [5, 5, 5, 5, 5, 4] := by decide

-- the same example: at equal priority the order is 11 (sequence 40), 13 (41), 12 (44)
theorem test_queue_order :
    ({ ready with
        lots := [{ lot 11 1 with sequence := 40 }, { lot 12 1 with sequence := 44 }, { lot 13 1 with sequence := 41 }]
        queue := [⟨11, 5⟩, ⟨12, 5⟩, ⟨13, 5⟩] } : State).queueOrder.map Waiting.lot = [11, 13, 12] := by decide +kernel

-- R82: the higher effective priority is bound, and the tester holds its program
theorem test_mode_change_serves :
    (let t := after (.cmod 0) (asking (queued.setCell 4 { cellIn .idle with mode := .maintenance }) 0 .cmod 0
        (num1 (4 : CellNo) ++ [Mode.production.byte]));
      (t.cell 4).bound = some 6002 ∧ (t.cell 4).state = .preparing
        ∧ (t.cell 4).preparation = some ⟨.notNeeded, none, .settling, some 900⟩) := by decide +kernel

/-! ### Preparation, runs and results (chapters 6 and 7) -/

-- R184: every request taken into service throughout the load is answered BUSY with sense START-UP, also when its
-- command comes after the load's end; one taken after it is carried out
theorem test_taken_during_load :
    let s := after (.startUpLoad .silent) (asking State.reset 0 .qcel 0 [0x04])
    let t := after (.qcel 0) s
    s.configState = .unconfigured ∧ response t 0 = some [0x01] ∧ (t.port 0).sense = ⟨.startUp, 0, some .qcel⟩
    ∧ (response (after (.sens 1) (asking s 1 .sens 0 [])) 1).map List.head? = some (some 0x00) := by decide +kernel

-- 6.2, example: ELDF leaves the cell IDLE with the failed program, and the lot waits in the queue
theorem test_failed_load :
    (let t := after (.eldf 3) (testerAsk (preparing ⟨.pending, some 9, .done, none⟩ 60 none) .eldf (loaded 900));
      (t.cell 4).state = .idle ∧ (t.cell 4).failed = some 900 ∧ (t.cell 4).loadRequest = none
        ∧ (t.lot 6001).map Lot.state = some .waiting ∧ t.queue = [⟨6001, 3⟩]) := by decide +kernel

-- the same example: the settle timeout forces MAINTENANCE and clears the thermal record
theorem test_settle_timeout :
    (let t := after (.settleDeadlineExpiry 4) (preparing ⟨.done, none, .settling, some 0⟩ 0 (some (.settle 4)));
      (t.cell 4).state = .idle ∧ (t.cell 4).mode = .maintenance ∧ (t.cell 4).thermal = ⟨none, false, 0⟩) := by
  decide +kernel

-- R95, R101: the program arrives at a warm cell and run 1 opens on all 100 units
theorem test_program_loaded :
    (let t := after (.epld 3) (testerAsk (preparing ⟨.pending, some 9, .done, none⟩ 60 none) .epld (loaded 900));
      (t.cell 4).state = .running
        ∧ (t.cell 4).run.map (fun r => (r.number, r.pass, r.expected, r.sites)) = some (1, 0, 100, 0x07)) := by
  decide +kernel

-- R98: the set point is reached, and the soak begins
theorem test_temperature_reached :
    ((after (.etmp 2) (handlerAsk (bound
      { cellIn .preparing with
        preparation := some ⟨.done, none, .settling, some 9⟩, thermal := ⟨some 85, false, 0⟩ } 100) .etmp
      (num1 (4 : CellNo) ++ temperature 85))).cell 4).preparation = some ⟨.done, none, .soaking, none⟩ := by
  decide +kernel

-- 6.5, example "a run end crossing the last results": C = 200 against B = 170
theorem test_run_end_crosses :
    (let t := after (.ernd 2) (handlerAsk (bound
        { cellIn .running with run := some { run1 with binned := 170 } } 600) .ernd (ended 200 .exhausted).bytes);
      (t.cell 4).state = .closing ∧ (t.cell 4).run.bind Run.closeDeadline = some 20
        ∧ response t 2 = some [0x00, 0x02]) := by decide +kernel

-- the same example: the deadline leaves SHORT RUN 30 and SHORT QUANTITY 30, and the cell PAUSED
theorem test_results_stay_away :
    (let r := { run1 with
        binned := 170, handlerCount := some 200, endReason := some EndReason.exhausted, closeDeadline := some 0 };
      let t := after (.closeDeadlineExpiry 4)
        { withLot (paired { cellIn .closing with run := some r, bound := some 6001 })
            { lot 6001 600 with state := .bound, cell := some 4, tested := 570, final := good 570 } with
          due := [.close 4] };
      (t.cell 4).state = .paused ∧ t.holds.map (fun h => (h.kind, h.arg, h.detail))
        = [(.reconcile, 2, 30), (.reconcile, 3, 30)]) := by decide +kernel

-- 12.5: 35h 7Fh stands for 128 units at site 3 in bin 5; 81h 05h awaits an origin byte
theorem test_entry_bytes :
    (readEbin (be32 6001 ++ be 2 1 ++ be 1 1 ++ [0x35, 0x7F])).toOption
      = some (result [{ site := 3, bin := 5, again := 127, origin := none, clean := true }])
    ∧ (readEbin (be32 6001 ++ be 2 1 ++ be 1 1 ++ [0x81, 0x05, 0x07])).toOption
      = some (result [{ site := 0, bin := 1, again := 5, origin := some 7, clean := true }]) := by decide +kernel

-- 7.4, example "a retest message with excess": 8 counted, 2 excluded, Pnext9 = 1 and nothing left to draw
theorem test_retest_message :
    (let plan : BinPlan := Vector.ofFn fun b => if b.val ≤ 1 then ⟨.pass, 10000⟩
        else if b.val = 7 ∨ b.val = 9 then ⟨.retest, 10000⟩ else ⟨.fail, 10000⟩;
      let t := Tally.entries plan
        ⟨{ lot 5120 100 with poolNow := (Bins.zero.set 7 6).set 9 2 }, { run1 with pass := 1, binned := 12 }, 0, 0⟩
        [⟨0, 0, 3, some 7, true⟩, ⟨1, 9, 0, some 7, true⟩, ⟨1, 0, 2, some 9, true⟩, ⟨0, 5, 1, some 7, true⟩];
      (t.counted, t.excluded, t.run.binned, t.run.excess) = (8, 2, 20, 2)
        ∧ (t.lot.final[(0 : Fin 16)], t.lot.final[(5 : Fin 16)], t.lot.poolNext[(9 : Fin 16)]) = (6, 1, 1)
        ∧ t.lot.poolNow.total = 0) := by decide +kernel

-- R123, R124: with X at its limit an excluded unit leaves it there and no hold is placed; below the limit one is
theorem test_excess_at_limit :
    (let full (x : Nat) : State := after (.ebin 3) (testerAsk
        (withLot (paired { cellIn .running with run := some { run1 with excess := x }, bound := some 6001 })
          { lot 6001 100 with state := .bound, cell := some 4, tested := 100, final := good 100 }) .ebin
        (result [unit]).bytes);
      (full 65535).holds = [] ∧ response (full 65535) 3 = some [0x00, 0, 0, 0, 1, 0, 0, 0xFF, 0xFF]
        ∧ (full 65534).holds.map (fun h => (h.kind, h.arg, h.detail)) = [(.reconcile, 1, 65535)]) := by decide +kernel

-- R118: an entry with a reserved bit set is refused FIELD with its index before its site and its tag are looked at
theorem test_reserved_bits_refused :
    refused (after (.ebin 3) (testerAsk (running .running 100) .ebin dirty)) 3 .field 0 := by decide +kernel

-- 7.6, example "one site removed, then the last": 9406 and 8429 beside 9500; site 2 leaves
theorem test_site_delta :
    (let counts := ((((Vector.replicate 8 (⟨0, 0⟩ : SiteCount)).set 0 ⟨120, 114⟩).set 1 ⟨118, 111⟩).set 2
        ⟨121, 102⟩).set 3 ⟨95, 90⟩;
      let s := bound { cellIn .running with active := 0x0F, run := some { run1 with sites := 0x0F, counts := counts } }
        1000;
      ((s.checkSites none 4 6001).cell 4).active = 0x0B) := by decide +kernel

-- 4, example: Q5 = 384 and RY = 9595; 4.4: 9393 and 354; 7: y1 = 9406
theorem test_ratios :
    [shareUp 38 990, shareDown 950 990, shareDown 930 990, shareUp 35 990, shareDown 111 118]
      = [384, 9595, 9393, 354, 9406] := by decide

-- R117: results after the run was abandoned
theorem test_run_closed :
    refused (after (.ebin 3) (testerAsk (bound (cellIn .paused) 100) .ebin (result [unit]).bytes)) 3 .runClosed 4 := by
  decide +kernel

-- R124, R108 to R110: the last awaited unit closes the run, and the lot goes on to its sample of 32
theorem test_last_result :
    (let r := { run1 with
        binned := 99, handlerCount := some 100, endReason := some EndReason.exhausted, closeDeadline := some 9 };
      let t := after (.ebin 3) (testerAsk
        (withLot (paired { cellIn .closing with run := some r, bound := some 6001 })
          { lot 6001 100 with state := .bound, cell := some 4, tested := 99, final := good 99 }) .ebin
        (result [unit]).bytes);
      (t.cell 4).state = .idle ∧ (t.lot 6001).map (fun l => (l.state, l.tested, l.sampleSize))
        = some (.sampling, 100, some 32)) := by decide +kernel

/-! ### Holds, sampling and release (chapters 8 and 9) -/

-- 8, example "a full hold list": the list is full, the flag is set and nothing else acts
theorem test_full_list_overflows :
    (let s := ({ withLot ready { lot 6001 100 with holdCount := 1 } with holds := fullList } : State).placeHold
        (some 3) 6001 .bin 5 320;
      (s.lot 6001).map (fun l => (l.holdCount, l.overflow)) = some (1, true) ∧ s.holds = fullList) := by
  decide +kernel

-- 8, example: HOVC leaves the lot unheld and the next run opens at once
theorem test_overflow_cleared :
    (let t := after (.hovc 0) (asking (withLot (paired { cellIn .paused with bound := some 6001 })
        { lot 6001 100 with state := .bound, cell := some 4, runCount := 4, overflow := true }) 0 .hovc 0
        (be32 6001));
      (t.cell 4).state = .running ∧ (t.cell 4).run.map Run.number = some 5) := by decide +kernel

-- 8, example "a released lot withdrawn": HOLD from port 1, note code 17
theorem test_released_lot_held :
    (let t := after (.hold 1) (asking (releasing .offered) 1 .hold 0 (be32 6001 ++ be 2 17));
      t.shipments = [] ∧ (t.lot 6001).map Lot.state = some .accepted
        ∧ t.holds = [⟨6001, .qa, 0, 0, some 1, 0, 17⟩] ∧ response t 1 = some [0x00, 0x01, 0x01, 0x00, 0x05]) := by
  decide +kernel

-- the same example: ACCEPT for a lot that is not SAMPLING
theorem test_disposition_refused :
    refused (after (.hclr 1) (clearing { doneLot 6001 .accepted 100 with holdCount := 1 } 1
      ⟨6001, .qa, 0, .accept⟩)) 1 .wrongState 6001 := by decide +kernel

-- R144: a first hold stops the run, and NSTO goes to the handler
theorem test_hold_stops_run :
    (let t := after (.hold 0) (asking (running .running 100) 0 .hold 0 (be32 6001 ++ be 2 9));
      (t.cell 4).state = .stopping ∧ (t.cell 4).run.map Run.stopFlag = some true
        ∧ (t.port 2).sending = some (.nsto 101 4 6001 1)) := by decide +kernel

-- 9, example: (950 x 20 + 999) / 1000 = 19, raised to 32; capped at Fpass below it
theorem test_sample_sizes : sampleSize product 950 = 32 ∧ sampleSize product 20 = 20 ∧ sampleSize product 12000 = 200 := by
  decide +kernel

-- 9, example: 1 reject of 32 is within the accept number; 2 are not
theorem test_sample_passes :
    ((after (.qres 1) (sampling 1)).lot 6001).map (fun l => (l.state, l.rejects)) = some (.accepted, 1)
    ∧ (after (.qres 1) (sampling 2)).holds.map (fun h => (h.kind, h.arg, h.detail)) = [(.qa, 0, 2)] := by
  decide +kernel

-- 9, example: shipped 949 of 1000, final yield 9490, grades 910 and 40
theorem test_shipment_record :
    (let l := { doneLot 6001 .accepted 1000 with
        rejects := 1, final := (((Bins.zero.set 0 910).set 1 40).set 5 40).set 7 10 };
      let plan : BinPlan := Vector.ofFn fun b => if b.val ≤ 1 then ⟨.pass, 10000⟩ else ⟨.fail, 10000⟩;
      let s := withLot { ready with tables := { ready.tables with plans := ready.tables.plans.set 1 plan } } l;
      let t := after (.rlse 1) (asking s 1 .rlse 0 (be32 6001));
      t.shipments.map (fun r => (r.passed, r.shipped, r.yield, r.grades)) = [(950, 949, 9490, [(0, 910), (1, 40)])]) := by
  decide +kernel

-- R164, R73: STAK frees the lot
theorem test_shipment_taken :
    (let t := after (.stak 0) (asking (releasing .offered) 0 .stak 0 []);
      t.shipments = [] ∧ t.lots = [] ∧ (response t 0).map (fun b => b.take 2) = some [0x00, 0x01]) := by
  decide +kernel

-- R167: enough records stand offered, so the arm is spent at once
theorem test_attention_armed :
    (let t := after (.sarm 0) (asking (releasing .offered) 0 .sarm 0 []);
      t.armed = false ∧ response t 0 = some [0x00, 0x00, 0x01, 0x01]) := by decide +kernel

/-! ### Clock and configuration (chapters 10 and 11) -/

/-- The window table of chapter 10's example. -/
def day : List Window := [⟨.dispatch, 420, 1380⟩, ⟨.dispatch, 1400, 20⟩, ⟨.release, 480, 540⟩, ⟨.dispatch, 0, 0⟩]

-- 10, example "a day on the floor"
theorem test_gates_of_a_day :
    [gateAt day .dispatch 1379, gateAt day .dispatch 1380, gateAt day .dispatch 1400, gateAt day .dispatch 0,
      gateAt day .dispatch 20, gateAt day .dispatch 420, gateAt day .release 479, gateAt day .release 480,
      gateAt day .release 540]
    = [.opened, .closed, .opened, .opened, .closed, .opened, .closed, .opened, .closed] := by decide +kernel

-- the same example: M goes from 1439 to 0, and the mark of 0 makes NMRK
theorem test_period_wraps :
    (let t := after .minuteTick { ready with
        due := [.minute]
        tables := { ready.tables with parameters := { Parameters.default with mark := some 0 } }
        clock := { Clock.reset with minute := 1439, stamp := 0xFFFFFFFF } };
      t.clock.minute = 0 ∧ t.clock.stamp = 0 ∧ (t.port 0).sending = some (.nmrk 0 0)) := by decide +kernel

-- R174, 12.6: CLKS reads the clock
theorem test_clock_read :
    response (after (.clks 0) (asking ready 0 .clks 0 [0x00])) 0
    = some [0x00, 0x00, 0, 0, 0, 0, 0, 0, 0x05, 0x9F, 0x03, 0x03, 0x00, 0, 0] := by decide +kernel

/-- The brand-new part of chapter 11's example, with product 12 defined and every plan all FAIL. -/
def newStore : State :=
  { ready with
    configState := .unconfigured
    tables := { Tables.cleared with products := Tables.cleared.products.set 12 { product with plan := 0 } } }

-- 11, example: CRDY is refused FIELD 12, and the WPRD of product 13 with plan 3 FIELD 13
theorem test_not_ready : refused (after (.crdy 0) (asking newStore 0 .crdy 0 [])) 0 .field 12 := by decide +kernel

theorem test_product_without_pass :
    refused (after (.wprd 0) (asking ready 0 .wprd 0 (num1 (13 : Fin 32) ++ { product with plan := 3 }.bytes))) 0
      .field 13 := by decide +kernel

-- the same example: the plan of a lot's product is in use
theorem test_plan_in_use :
    refused (after (.wbpl 0) (asking (withLot ready (lot 6001 100)) 0 .wbpl 0 (num1 (1 : Fin 8) ++ plan.bytes))) 0
      .inUse 1 := by decide +kernel

-- the same example: CSAV answers GOOD when the store reads back the same
theorem test_store_written :
    (let t := after (.storeWrite .same) (after (.csav 0) (asking ready 0 .csav 0 []));
      t.store = ⟨true, true, ready.tables⟩ ∧ response t 0 = some [0x00, 0x02]) := by decide +kernel

-- the same example: the reset line in the middle of the write leaves no marker
theorem test_write_cut :
    (let t := after (.powerOnReset .beforeMarker) (after (.csav 0) (asking ready 0 .csav 0 []));
      t.store.marker = false ∧ t.configState = .loading) := by decide +kernel

end Sys2Proof.Tests
end

section
/-! What a port unit does, one equation per case of each of its operations (chapter 1). -/

namespace Sys2Proof.Machine

/-! ## The transmitter (R16) -/

/-- A busy line goes on with its frame. -/
theorem PortUnit.startNext_busy {u : PortUnit} (busy : u.line ≠ none) : u.startNext = u := by
  simp [PortUnit.startNext, Option.isSome_iff_ne_none.mpr busy]

/-- An idle transmitter begins the response first. -/
theorem PortUnit.startNext_response {u : PortUnit} {f : Frame} {d : Nat} {payload : List Byte} (idle : u.line = none)
    (ready : u.service = some ⟨f, d, .answered payload⟩) :
    u.startNext = { u with line := some ⟨.response, responseBytes f payload⟩ } := by
  simp [PortUnit.startNext, idle, ready]

/-- With no response ready, an idle transmitter looks at the flow slot and then at the unsent notices. -/
theorem PortUnit.startNext_of_no_response {u : PortUnit} (idle : u.line = none)
    (none_ready : ∀ f d payload, u.service ≠ some ⟨f, d, .answered payload⟩) :
    u.startNext = match u.flow, u.unsent with
      | some f, _ => { u with flow := none, line := some ⟨.flow, f.bytes⟩ }
      | none, n :: rest => { u with sending := some n, unsent := rest, line := some ⟨.notice, n.bytes⟩ }
      | none, [] => u := by
  unfold PortUnit.startNext
  rw [if_neg (by simp [idle])]
  split
  · exact absurd ‹_› (none_ready _ _ _)
  · rfl

/-- Everything the transmitter can do when it looks for a next frame. -/
theorem PortUnit.startNext_cases (u : PortUnit) :
    u.startNext = u
    ∨ u.line = none ∧
      ((∃ bytes, u.startNext = { u with line := some ⟨.response, bytes⟩ })
      ∨ (∃ f, u.flow = some f ∧ u.startNext = { u with flow := none, line := some ⟨.flow, f.bytes⟩ })
      ∨ ∃ n rest, u.unsent = n :: rest
        ∧ u.startNext = { u with sending := some n, unsent := rest, line := some ⟨.notice, n.bytes⟩ }) := by
  unfold PortUnit.startNext
  split
  · exact .inl rfl
  · rename_i idle
    have idle : u.line = none := by simpa using idle
    split
    · exact .inr ⟨idle, .inl ⟨_, rfl⟩⟩
    · split
      · exact .inr ⟨idle, .inr (.inl ⟨_, ‹_›, rfl⟩)⟩
      · exact .inr ⟨idle, .inr (.inr ⟨_, _, ‹_›, rfl⟩)⟩
      · exact .inl rfl

/-! ## The outbox (R13 to R15) -/

/-- Ports 0 and 1 have room for 16 notices, the one on the line counted. -/
theorem PortUnit.hasRoom_supervisor {u : PortUnit} : u.hasRoom true = true ↔ u.outbox < 16 := decide_eq_true_iff

/-- An equipment port has room for a notice when its staged slot is free. -/
theorem PortUnit.hasRoom_equipment {u : PortUnit} : u.hasRoom false = true ↔ u.unsent = [] := List.isEmpty_iff

/-! ## The limits of chapter 1, operation by operation -/

section limits
variable {sup : Bool} {u : PortUnit}

/-- A port unit after a power-on reset is within its limits. -/
theorem PortUnit.sound_reset (sup : Bool) : PortUnit.reset.Sound sup where
  receiver := trivial
  intake := by simp [PortUnit.reset]
  hoff := by simp [PortUnit.reset]
  rsum := by simp [PortUnit.reset]
  room := by cases sup <;> simp [PortUnit.reset, PortUnit.outbox]
  coalesced := by simp [PortUnit.reset]
  sending := rfl
  counters := by simp [PortUnit.reset]

/-- An idle line leaves the sending place of the outbox empty. -/
theorem PortUnit.Sound.sending_none (h : u.Sound sup) (idle : u.line = none) : u.sending = none := by
  simpa [PortUnit.sendsNotice, idle] using h.sending

theorem PortUnit.Sound.startNext (h : u.Sound sup) : u.startNext.Sound sup := by
  obtain e | ⟨idle, ⟨bytes, e⟩ | ⟨f, flow, e⟩ | ⟨n, rest, unsent, e⟩⟩ := u.startNext_cases <;> rw [e]
  · exact h
  · exact { h with sending := by simp [h.sending_none idle, PortUnit.sendsNotice] }
  · exact { h with
      hoff := by simp, rsum := by simp
      sending := by simp [h.sending_none idle, PortUnit.sendsNotice] }
  · have room := h.room
    have coalesced := h.coalesced
    simp only [PortUnit.outbox, unsent, h.sending_none idle, List.length_cons] at room
    rw [unsent, List.map_cons, List.nodup_cons] at coalesced
    refine { h with
      room := ?_, coalesced := coalesced.2
      sending := by simp [PortUnit.sendsNotice] }
    cases sup
    · simp only [Bool.false_eq_true, if_false] at room ⊢
      omega
    · simpa [PortUnit.outbox] using room

/-- A replacement by a notice of the same key leaves every key as it was. -/
theorem keys_replace (ns : List Notice) (n : Notice) :
    (ns.map fun m => if m.key = n.key then n else m).map Notice.key = ns.map Notice.key := by
  rw [List.map_map]
  refine List.map_congr_left fun m _ => ?_
  by_cases same : m.key = n.key <;> simp [same]

theorem PortUnit.Sound.place (h : u.Sound sup) (n : Notice) : (u.place sup n).Sound sup := by
  unfold PortUnit.place
  split
  · exact { h with
      room := by simpa [PortUnit.outbox] using h.room
      coalesced := by rw [keys_replace]; exact h.coalesced }
  · rename_i fresh
    have fresh : ∀ m ∈ u.unsent, m.key ≠ n.key := by simpa using fresh
    split
    · rename_i room
      refine { h with room := ?_, coalesced := ?_ }
      · cases sup
        · simp [PortUnit.hasRoom_equipment.mp room]
        · have := PortUnit.hasRoom_supervisor.mp room
          simp only [PortUnit.outbox, if_true, List.length_append, List.length_singleton] at this ⊢
          omega
      · simp only [List.map_append, List.map_cons, List.map_nil]
        refine List.Nodup.append h.coalesced (List.nodup_singleton _) ?_
        simpa [List.disjoint_singleton] using fun m hm => fresh m hm
    · exact { h with }

theorem PortUnit.Sound.setHoldOff (h : u.Sound sup) : u.setHoldOff.Sound sup :=
  { h with
    hoff := fun _ => rfl
    rsum := by simp only [PortUnit.setHoldOff]; split <;> simp }

theorem PortUnit.Sound.clearHoldOff (h : u.Sound sup) : u.clearHoldOff.Sound sup :=
  { h with
    hoff := by simp only [PortUnit.clearHoldOff]; split <;> simp
    rsum := fun _ => rfl }

theorem bump_le (n : Nat) : bump n ≤ 65535 := Nat.min_le_left _ _

theorem PortUnit.Sound.countCrcError (h : u.Sound sup) : u.countCrcError.Sound sup :=
  { h with counters := ⟨bump_le _, h.counters.2⟩ }

theorem PortUnit.Sound.countGapAbort (h : u.Sound sup) : u.countGapAbort.Sound sup :=
  { h with counters := ⟨h.counters.1, bump_le _, h.counters.2.2⟩ }

theorem PortUnit.Sound.countOverrun (h : u.Sound sup) : u.countOverrun.Sound sup :=
  { h with counters := ⟨h.counters.1, h.counters.2.1, bump_le _⟩ }

theorem PortUnit.Sound.clearStatus (h : u.Sound sup) : u.clearStatus.Sound sup :=
  { h with counters := by simp [PortUnit.clearStatus] }

/-- The receiver may stand in any condition that R2 allows. -/
theorem PortUnit.Sound.withReceiver (h : u.Sound sup) {r : Receiver} (sound : r.Sound) :
    ({ u with receiver := r } : PortUnit).Sound sup :=
  { h with receiver := sound }

theorem PortUnit.Sound.hunting (h : u.Sound sup) : ({ u with receiver := .hunting } : PortUnit).Sound sup :=
  h.withReceiver trivial

/-- The service slot and the sense record have no limits of their own. -/
theorem PortUnit.Sound.withService (h : u.Sound sup) (v : Option Service) (x : Sense) :
    ({ u with service := v, sense := x } : PortUnit).Sound sup :=
  { h with }

theorem PortUnit.Sound.loadEnds (h : u.Sound sup) : u.loadEnds.Sound sup := h.withService _ _

theorem PortUnit.Sound.answer (h : u.Sound sup) (r : Option Req) (reply : Reply) : (u.answer r reply).Sound sup :=
  (h.withService _ _).startNext

theorem PortUnit.Sound.answerStartUp (h : u.Sound sup) (r : Option Req) : (u.answerStartUp r).Sound sup :=
  (h.withService _ _).startNext

theorem PortUnit.Sound.take (h : u.Sound sup) : u.take.Sound sup := by
  unfold PortUnit.take
  split
  · rename_i f rest _ intake
    have taken : ({ u with service := some ⟨f, rest.length, .taken⟩, intake := rest } : PortUnit).Sound sup :=
      { h with intake := by have := h.intake; rw [intake, List.length_cons] at this; simp only; omega }
    split
    · exact taken.clearHoldOff
    · exact taken
  · exact h

theorem PortUnit.Sound.join (h : u.Sound sup) (f : Frame) : (u.join f).Sound sup := by
  unfold PortUnit.join
  split
  · rename_i room
    have joined : ({ u with intake := u.intake ++ [f] } : PortUnit).Sound sup :=
      { h with intake := (List.length_append ..).trans_le (Nat.succ_le_of_lt room) }
    dsimp only
    split
    · exact joined.setHoldOff
    · exact joined
  · exact h.countOverrun

theorem PortUnit.Sound.complete (h : u.Sound sup) (length : Nat) (got : List Byte) :
    (u.complete length got).Sound sup := by
  unfold PortUnit.complete
  dsimp only
  split
  · exact h.hunting.countCrcError
  · exact ((h.hunting.join _).take).startNext

theorem PortUnit.Sound.receive (h : u.Sound sup) (b : Byte) : (u.receive b).Sound sup := by
  unfold PortUnit.receive
  split
  · split
    · exact h.withReceiver trivial
    · exact h
  · split
    · exact h.withReceiver trivial
    · split
      · exact h
      · exact h.withReceiver trivial
  · split
    · exact h.withReceiver ⟨‹_›, by simp⟩
    · exact h.hunting.countCrcError
  · rename_i length got body
    have sound := h.receiver
    rw [body] at sound
    split
    · exact h.complete _ _
    · rename_i more
      have more : got.length + 1 ≠ length + 3 := by simpa [frameWhole] using more
      refine h.withReceiver ⟨sound.1, ?_⟩
      have := sound.2
      simp only [List.length_append, List.length_singleton]
      omega

theorem PortUnit.Sound.gap (h : u.Sound sup) : u.gap.Sound sup := by
  unfold PortUnit.gap
  split
  · exact h
  · exact h.hunting.countGapAbort

/-- A line that is idle or carries something else than a notice, with the sending place empty. -/
theorem PortUnit.Sound.withLine (h : u.Sound sup) {l : Option Line} (other : ∀ x, l = some x → x.use ≠ .notice) :
    ({ u with sending := none, line := l } : PortUnit).Sound sup := by
  refine { h with room := ?_, sending := ?_ }
  · have room := h.room
    cases sup
    · exact room
    · simp only [PortUnit.outbox, if_true] at room ⊢
      simp only [Option.isSome_none, Bool.false_eq_true, if_false]
      omega
  · cases l with
    | none => rfl
    | some x => simp [PortUnit.sendsNotice, other x rfl]

/-- A unit whose line carries something else than a notice has nothing in its sending place. -/
theorem PortUnit.Sound.sending_of_line (h : u.Sound sup) {x : Line} (line : u.line = some x) (other : x.use ≠ .notice) :
    u.sending = none := by
  simpa [PortUnit.sendsNotice, line, other] using h.sending

/-- The end of a frame that was no notice frees the line. -/
theorem PortUnit.Sound.freeLine (h : u.Sound sup) {x : Line} (line : u.line = some x) (other : x.use ≠ .notice) :
    ({ u with line := none } : PortUnit).Sound sup := by
  have := h.withLine (l := none) (by simp)
  rwa [← h.sending_of_line line other] at this

theorem PortUnit.Sound.resumeFirst (h : u.Sound sup) : u.resumeFirst.Sound sup := by
  unfold PortUnit.resumeFirst
  split
  · rename_i first
    have idle : u.line = none := by simpa using first.1
    exact { h with
      hoff := by simp, rsum := by simp
      sending := by simp [h.sending_none idle, PortUnit.sendsNotice] }
  · exact h.startNext

theorem PortUnit.Sound.sent (h : u.Sound sup) : u.sent.Sound sup := by
  unfold PortUnit.sent
  split
  · exact h
  · rename_i line
    have freed : ({ u with service := none, line := none } : PortUnit).Sound sup :=
      (h.freeLine line (by simp)).withService none u.sense
    dsimp only
    split
    · exact freed
    · exact freed.take.startNext
  · exact (h.withLine (by simp)).startNext
  · rename_i line
    exact (h.freeLine line (by simp)).startNext
  · rename_i line
    exact (h.freeLine line (by simp)).resumeFirst

theorem PortUnit.Sound.floorReset (h : u.Sound sup) : u.floorReset.Sound sup := by
  refine PortUnit.Sound.startNext
    { receiver := trivial, intake := by simp, hoff := ?_, rsum := fun _ => rfl, room := ?_, coalesced := by simp,
      sending := ?_, counters := h.counters }
  · dsimp only
    split <;> [split; skip] <;> simp
  · cases sup <;> simp [PortUnit.outbox]
  · cases line : u.line <;> simp [PortUnit.sendsNotice]

end limits

end Sys2Proof.Machine
end

section
/-! Every operation of the part keeps the port units within their limits: only notices, answers and the link events
reach a port unit, and each of those keeps the limits of chapter 1. -/

namespace Sys2Proof.Machine

/-! ## The port units after a reset -/

@[simp] theorem State.floorReset_port (s : State) (p : Port) : s.floorReset.port p = (s.port p).floorReset := by
  simp [State.floorReset, State.port]

@[simp] theorem State.reset_port (p : Port) : State.reset.port p = PortUnit.reset := by
  simp [State.reset, State.port]

namespace State.PortsSound

variable {s t : State}

/-! ## The ways to reach a port unit -/

/-- A change that leaves the ports leaves their limits. -/
theorem of_ports (h : s.PortsSound) (same : t.ports = s.ports) : t.PortsSound := by
  unfold State.PortsSound State.port at *
  rwa [same]

theorem of_ite {c : Prop} [Decidable c] (h : s.PortsSound) (k : t.PortsSound) :
    (if c then s else t).PortsSound := by
  split
  · exact h
  · exact k

theorem setPort (h : s.PortsSound) (p : Port) {u : PortUnit} (sound : u.Sound (supervisor p)) :
    (s.setPort p u).PortsSound := by
  intro q
  by_cases same : q = p
  · subst same
    simpa using sound
  · simpa [same] using h q

theorem onPort (h : s.PortsSound) (p : Port) {f : PortUnit → PortUnit}
    (keeps : ∀ u : PortUnit, u.Sound (supervisor p) → (f u).Sound (supervisor p)) : (s.onPort p f).PortsSound :=
  h.setPort p (keeps _ (h p))

theorem onPorts (h : s.PortsSound) {f : PortUnit → PortUnit}
    (keeps : ∀ (sup : Bool) (u : PortUnit), u.Sound sup → (f u).Sound sup) : (s.onPorts f).PortsSound := by
  intro p
  simpa using keeps _ _ (h p)

theorem notify (h : s.PortsSound) (p : Port) (n : Notice) : (s.notify p n).PortsSound :=
  h.onPort p fun _ sound => (sound.place n).startNext

theorem answer (h : s.PortsSound) (p : Port) (r : Option Req) (reply : Reply) : (s.answer p r reply).PortsSound :=
  h.onPort p fun _ sound => sound.answer r reply

theorem answerStartUp (h : s.PortsSound) (p : Port) (r : Option Req) : (s.answerStartUp p r).PortsSound :=
  h.onPort p fun _ sound => sound.answerStartUp r

/-! ## Updates of the records behind the ports -/

theorem onCell (h : s.PortsSound) (c : CellNo) (f : Cell → Cell) : (s.onCell c f).PortsSound := h.of_ports rfl

theorem onLot (h : s.PortsSound) (id : Id) (f : Lot → Lot) : (s.onLot id f).PortsSound := h.of_ports rfl

theorem setEntry (h : s.PortsSound) (i : Position) (e : Option Entry) : (s.setEntry i e).PortsSound := h.of_ports rfl

theorem onEquip (h : s.PortsSound) (id : Id) (f : Entry → Entry) : (s.onEquip id f).PortsSound := by
  unfold State.onEquip
  split
  · exact h.setEntry _ _
  · exact h

theorem leaveQueue (h : s.PortsSound) (id : Id) : (s.leaveQueue id).PortsSound := h.of_ports rfl

theorem joinQueue (h : s.PortsSound) (id : Id) : (s.joinQueue id).PortsSound := by
  unfold State.joinQueue
  split
  · exact h.of_ports rfl
  · exact h

theorem recompute (h : s.PortsSound) : s.recompute.PortsSound := h.of_ports rfl

theorem recomputeLot (h : s.PortsSound) (id : Id) : (s.recomputeLot id).PortsSound := h.of_ports rfl

theorem removeHold (h : s.PortsSound) (id : Id) (kind : HoldKind) (a : Nat) : (s.removeHold id kind a).PortsSound :=
  h.of_ports rfl

theorem dropShipment (h : s.PortsSound) (id : Id) : (s.dropShipment id).PortsSound := h.of_ports rfl

theorem offerAll (h : s.PortsSound) (o : OfferState) : (s.offerAll o).PortsSound := h.of_ports rfl

/-! ## Notices -/

theorem notifyEquip (h : s.PortsSound) (id : Id) (n : Notice) : (s.notifyEquip id n).PortsSound := by
  unfold State.notifyEquip
  split
  · split
    · exact h.notify _ _
    · exact h
  · exact h

theorem notifyMember (h : s.PortsSound) (m : Option Id) (n : Id → Notice) : (s.notifyMember m n).PortsSound := by
  cases m with
  | none => exact h
  | some id => exact h.notifyEquip id _

theorem notifyMembers (h : s.PortsSound) (c : CellNo) (n : Id → Notice) : (s.notifyMembers c n).PortsSound :=
  (h.notifyMember _ _).notifyMember _ _

theorem ncel (h : s.PortsSound) (c : CellNo) : (s.ncel c).PortsSound := h.notify _ _

theorem nlot (h : s.PortsSound) (id : Id) (cause : Cause) (hold : Option (HoldKind × Nat) := none) :
    (s.nlot id cause hold).PortsSound := by
  unfold State.nlot
  split
  · exact h.notify _ _
  · exact h

theorem moveCell (h : s.PortsSound) (c : CellNo) (f : Cell → Cell) : (s.moveCell c f).PortsSound :=
  (h.onCell c f).ncel c

/-! ## The release unit (chapter 9) -/

theorem decideSample (h : s.PortsSound) (id : Id) : (s.decideSample id).PortsSound := by
  unfold State.decideSample
  split
  · split
    · dsimp only
      split
      · exact (h.onLot id _).nlot id _
      · exact ((h.onLot id _).notify qaPort _).nlot id _
    · exact h
  · exact h

theorem attentionTest (h : s.PortsSound) : s.attentionTest.PortsSound := by
  unfold State.attentionTest
  split
  · exact (h.of_ports rfl).notify hostPort _
  · exact h

theorem withdraw (h : s.PortsSound) (id : Id) : (s.withdraw id).PortsSound :=
  ((h.dropShipment id).onLot id _).nlot id _

/-! ## Holds (chapter 8) -/

theorem stopRun (h : s.PortsSound) (c : CellNo) : (s.stopRun c).PortsSound := by
  unfold State.stopRun
  split
  · exact (h.notifyMember _ _).moveCell c _
  · exact h

theorem firstHold (h : s.PortsSound) (id : Id) : (s.firstHold id).PortsSound := by
  obtain e | e | ⟨c, e⟩ | e := s.firstHold_cases id <;> rw [e]
  · exact h
  · exact h.leaveQueue id
  · exact h.stopRun c
  · exact h.withdraw id

theorem appendHold (h : s.PortsSound) (r : HoldRecord) : (s.appendHold r).PortsSound := by
  have appended : (({ s with holds := s.holds ++ [r] } : State).onLot r.lot fun l =>
      { l with holdCount := l.holdCount + 1 }).PortsSound := h.of_ports rfl
  unfold State.appendHold
  dsimp only
  split
  · exact (appended.nlot _ _ _).firstHold _
  · exact appended.nlot _ _ _

theorem setOverflow (h : s.PortsSound) (id : Id) : (s.setOverflow id).PortsSound := by
  obtain e | ⟨l, -, -, e | e⟩ := s.setOverflow_cases id <;> rw [e]
  · exact h
  · exact (h.onLot id _).nlot id _
  · exact ((h.onLot id _).nlot id _).firstHold id

theorem placeHold (h : s.PortsSound) (src : Option Port) (id : Id) (kind : HoldKind) (a d : Nat) :
    (s.placeHold src id kind a d).PortsSound := by
  obtain e | ⟨-, -, e⟩ | ⟨l, -, -, -, e⟩ := s.placeHold_cases src id kind a d <;> rw [e]
  · exact h
  · exact h.setOverflow id
  · exact h.appendHold _

theorem checkYield (h : s.PortsSound) (src : Option Port) (id : Id) : (s.checkYield src id).PortsSound := by
  unfold State.checkYield
  split
  · exact h
  · split
    · split
      · exact h.placeHold _ _ _ _ _
      · exact h
    · exact h

theorem checkBin (h : s.PortsSound) (src : Option Port) (id : Id) (b : Fin 16) :
    (State.checkBin src id s b).PortsSound := by
  unfold State.checkBin
  split
  · exact h
  · dsimp only
    split
    · split
      · exact h.placeHold _ _ _ _ _
      · exact h
    · exact h

/-- What every item of a list keeps, all of them one after another keep. -/
theorem foldl {α : Type} {f : State → α → State} (keeps : ∀ u a, u.PortsSound → (f u a).PortsSound)
    (as : List α) (h : s.PortsSound) : (as.foldl f s).PortsSound := by
  induction as generalizing s with
  | nil => exact h
  | cons a as ih => exact ih (keeps s a h)

theorem checkRatios (h : s.PortsSound) (src : Option Port) (id : Id) : (s.checkRatios src id).PortsSound :=
  (h.checkYield src id).foldl (fun _ b u => u.checkBin src id b) _

/-! ## Runs, preparations and bindings (chapters 5 and 6) -/

theorem lotTested (h : s.PortsSound) (src : Option Port) (c : CellNo) (id : Id) :
    (s.lotTested src c id).PortsSound :=
  (((((h.onLot id _).nlot id _).onCell c _).checkRatios src id).decideSample id).moveCell c _

theorem openRun (h : s.PortsSound) (src : Option Port) (c : CellNo) (l : Lot) : (s.openRun src c l).PortsSound := by
  unfold State.openRun
  split
  · exact (h.placeHold _ _ _ _ _).moveCell c _
  · exact ((h.onLot _ _).moveCell c _).notifyMembers c _

theorem goOn (h : s.PortsSound) (src : Option Port) (c : CellNo) : (s.goOn src c).PortsSound := by
  unfold State.goOn
  split
  · exact h
  · split
    · exact h.openRun src c _
    · dsimp only
      split
      · exact (h.onLot _ _).openRun src c _
      · exact (h.onLot _ _).lotTested src c _

theorem buildProgram (h : s.PortsSound) (c : CellNo) (p : Product) : (s.buildProgram c p).1.PortsSound := by
  unfold State.buildProgram
  split
  · exact h
  · exact (h.notifyMember _ _).onCell c _

theorem buildThermal (h : s.PortsSound) (c : CellNo) (p : Product) : (s.buildThermal c p).1.PortsSound := by
  unfold State.buildThermal
  dsimp only
  split
  · split
    · split <;> exact h
    · exact h
  · exact (h.notifyMember _ _).onCell c _

theorem testPreparation (h : s.PortsSound) (src : Option Port) (c : CellNo) :
    (s.testPreparation src c).PortsSound := by
  unfold State.testPreparation
  split
  · split
    · dsimp only
      split
      · split
        · exact (h.onCell c _).goOn src c
        · exact (h.onCell c _).moveCell c _
      · exact h.onCell c _
    · exact h
  · exact h

theorem prepare (h : s.PortsSound) (src : Option Port) (c : CellNo) : (s.prepare src c).PortsSound := by
  unfold State.prepare
  split
  · exact h
  · exact (((h.buildProgram c _).buildThermal c _).moveCell c _).testPreparation src c

theorem bind (h : s.PortsSound) (src : Option Port) (id : Id) (c : CellNo) : (s.bind src id c).PortsSound :=
  ((((h.leaveQueue id).onLot id _).nlot id _).onCell c _).prepare src c

theorem serve (h : s.PortsSound) (src : Option Port) (c : CellNo) : (s.serve src c).PortsSound :=
  State.serve_keeps State.PortsSound (fun _ id _ u => u.bind src id c) h

theorem offer (h : s.PortsSound) (src : Option Port) (id : Id) : (s.offer src id).PortsSound :=
  State.offer_keeps State.PortsSound (fun _ k c u => u.bind src k c) h

theorem joinAndOffer (h : s.PortsSound) (src : Option Port) (id : Id) : (s.joinAndOffer src id).PortsSound :=
  (h.joinQueue id).offer src id

theorem unbind (h : s.PortsSound) (src : Option Port) (c : CellNo) (id : Id) (f : Cell → Cell) :
    (s.unbind src c id f).PortsSound := by
  have unbound := ((h.onLot id fun l => { l with cell := none, state := .waiting }).nlot id .unbound).moveCell c
    fun x => f { x with bound := none }
  have served {p : Prop} [Decidable p] := (of_ite (c := p) (unbound.joinQueue id) unbound).serve src c
  exact of_ite (served.offer src id) served

theorem serveIdle (h : s.PortsSound) (src : Option Port) : (s.serveIdle src).PortsSound :=
  h.foldl (fun _ c u => u.serve src c) _

theorem placeCloseHold (h : s.PortsSound) (src : Option Port) (id : Id) (hold : CloseHold) :
    (s.placeCloseHold src id hold).PortsSound := by
  unfold State.placeCloseHold
  split
  · exact h.placeHold _ _ _ _ _
  · exact h

theorem afterClose (h : s.PortsSound) (src : Option Port) (c : CellNo) (id : Id) :
    (s.afterClose src c id).PortsSound := by
  unfold State.afterClose
  split
  · exact h
  · have completed {p : Prop} [Decidable p] {f : Lot → Lot} := of_ite (c := p) h (h.onLot id f)
    exact of_ite (completed.lotTested src c id) (of_ite (completed.openRun src c _) (completed.moveCell c _))

theorem closeRun (h : s.PortsSound) (src : Option Port) (c : CellNo) (hold : CloseHold) (reason : EndReason) :
    (s.closeRun src c hold reason).PortsSound := by
  unfold State.closeRun
  split
  · exact h
  · exact ((((h.onCell c _).placeCloseHold src _ hold).placeCloseHold src _ _).afterClose src c _).serve src c

theorem evaluateEnd (h : s.PortsSound) (src : Option Port) (c : CellNo) (r : Run) (count : Nat)
    (reason : EndReason) : (s.evaluateEnd src c r count reason).1.PortsSound := by
  unfold State.evaluateEnd
  dsimp only
  split
  · exact (h.onCell c _).moveCell c _
  · exact (h.onCell c _).closeRun src c _ _

theorem testClose (h : s.PortsSound) (src : Option Port) (c : CellNo) : (s.testClose src c).PortsSound := by
  unfold State.testClose
  split
  · split
    · exact of_ite (h.closeRun src c _ _) h
    · exact h
  · exact h

theorem closeExpired (h : s.PortsSound) (src : Option Port) (c : CellNo) : (s.closeExpired src c).PortsSound := by
  unfold State.closeExpired
  split
  · split
    · exact h.closeRun src c _ _
    · exact h
  · exact h

theorem loadFailed (h : s.PortsSound) (src : Option Port) (c : CellNo) : (s.loadFailed src c).PortsSound := by
  unfold State.loadFailed
  split
  · exact h
  · exact (h.onCell c _).unbind src c _ _

theorem settleFailed (h : s.PortsSound) (src : Option Port) (c : CellNo) : (s.settleFailed src c).PortsSound := by
  unfold State.settleFailed
  split
  · exact h
  · exact (h.onCell c _).unbind src c _ _

theorem becomeUnheld (h : s.PortsSound) (src : Option Port) (id : Id) : (s.becomeUnheld src id).PortsSound := by
  unfold State.becomeUnheld
  split
  · exact h
  · split
    · exact h.joinAndOffer src id
    · split
      · exact of_ite ((h.goOn src _).serve src _) h
      · exact h
    · exact h.decideSample id
    · exact of_ite h (h.placeHold _ _ _ _ _)
    all_goals exact h

/-! ## Negotiation, formation and disturbances (chapter 3) -/

theorem query (h : s.PortsSound) (c : CellNo) (m : Option Id) : (s.query c m).PortsSound := h.notifyMember _ _

theorem enterOffer (h : s.PortsSound) (c : CellNo) (handler tester : Bool := false) :
    (s.enterOffer c handler tester).PortsSound := by
  have offered := h.moveCell c fun x =>
    { x with
      state := .offer, fault := none,
      negotiation := some (Negotiation.fresh handler tester s.tables.parameters.negotiation) }
  have asked (m : Option Id) := of_ite (c := handler = true) offered (offered.query c m)
  exact of_ite (asked _) ((asked _).query c _)

theorem enterFault (h : s.PortsSound) (c : CellNo) (reason : FaultReason) : (s.enterFault c reason).PortsSound :=
  h.moveCell c _

theorem confirm (h : s.PortsSound) (c : CellNo) (m : Option Id) (cap : Capability) : (s.confirm c m cap).PortsSound :=
  h.notifyMember _ _

theorem reported (h : s.PortsSound) (c : CellNo) : (s.reported c).PortsSound := by
  unfold State.reported
  split
  · exact of_ite (h.enterFault c _) ((h.moveCell c _).notifyMembers c _)
  · exact h

theorem formed (h : s.PortsSound) (src : Option Port) (c : CellNo) (cap : Capability) :
    (s.formed src c cap).PortsSound := by
  have formed := h.onCell c fun x =>
    { x with
      common := some cap, active := cap.sites, thermal := Thermal.clear, failed := none, negotiation := none }
  unfold State.formed
  dsimp only
  split
  · exact (formed.moveCell c _).serve src c
  · exact of_ite ((formed.prepare src c).serve src c) (formed.unbind src c _ _)

theorem enterLost (h : s.PortsSound) (c : CellNo) : (s.enterLost c).PortsSound := h.moveCell c _

theorem disturbMove (h : s.PortsSound) (c : CellNo) (d : Disturbance) : (s.disturbMove c d).PortsSound := by
  cases d with
  | stale => exact h.enterLost c
  | reannounce => exact of_ite (h.enterLost c) (h.enterOffer c)

theorem disturb (h : s.PortsSound) (src : Option Port) (c : CellNo) (d : Disturbance) :
    (s.disturb src c d).PortsSound := by
  unfold State.disturb
  split
  · exact h
  · dsimp only
    split
    · exact ((h.onCell c _).disturbMove c d).placeHold _ _ _ _ _
    · exact (h.onCell c _).disturbMove c d

theorem memberReturn (h : s.PortsSound) (c : CellNo) (id : Id) : (s.memberReturn c id).PortsSound := by
  unfold State.memberReturn
  dsimp only
  split
  · exact of_ite (h.enterOffer c) h
  · exact of_ite h (h.query c _)
  · split
    · exact h
    · split
      · exact h.confirm c _ _
      · exact h
  · exact h

theorem clearMembership (h : s.PortsSound) (m : Option Id) : (s.clearMembership m).PortsSound := by
  cases m with
  | none => exact h
  | some id => exact h.onEquip id _

theorem undock (h : s.PortsSound) (src : Option Port) (c : CellNo) : (s.undock src c).PortsSound := by
  have cleared := ((h.clearMembership (s.cell c).handler).clearMembership (s.cell c).tester).notifyMembers c
    fun id => .ndis id c
  unfold State.undock
  dsimp only
  split
  · exact cleared.unbind src c _ _
  · exact cleared.moveCell c _

/-! ## Windows, resets and loads (chapters 10 and 11) -/

theorem deliverDispatch (h : s.PortsSound) (src : Option Port) (was now : GateState) :
    (s.deliverDispatch src was now).PortsSound :=
  of_ite (h.serveIdle src) h

theorem deliverRelease (h : s.PortsSound) (was now : GateState) : (s.deliverRelease was now).PortsSound :=
  of_ite (h.offerAll _).attentionTest (of_ite (h.offerAll _) h)

theorem evaluateGates (h : s.PortsSound) (src : Option Port) : (s.evaluateGates src).PortsSound := by
  have recorded (clock : Clock) : ({ s with clock := clock } : State).PortsSound := h.of_ports rfl
  exact ((recorded _).deliverDispatch src _ _).deliverRelease _ _

theorem clampMinute (h : s.PortsSound) : s.clampMinute.PortsSound := of_ite (h.of_ports rfl) h

theorem periodChanged (h : s.PortsSound) (src : Option Port) : (s.periodChanged src).PortsSound :=
  h.clampMinute.evaluateGates src

theorem fireMark (h : s.PortsSound) : s.fireMark.PortsSound := of_ite (h.notify _ _) h

theorem minute (h : s.PortsSound) : s.minute.PortsSound := by
  have advanced (clock : Clock) : ({ s with clock := clock } : State).recompute.PortsSound := h.of_ports rfl
  exact (of_ite (advanced _) ((advanced _).evaluateGates none)).fireMark

theorem floorReset (h : s.PortsSound) : s.floorReset.PortsSound := by
  intro p
  rw [State.floorReset_port]
  exact (h p).floorReset

/-- The port units after a power-on reset. -/
theorem reset : State.reset.PortsSound := by
  intro p
  rw [State.reset_port]
  exact PortUnit.sound_reset _

theorem endLoad (h : s.PortsSound) (reply : StoreReply) : (s.endLoad reply).PortsSound := by
  have ended := h.onPorts (f := PortUnit.loadEnds) fun _ _ sound => sound.loadEnds
  have installed (tables : Tables) (c : ConfigState) :
      ({ s.onPorts PortUnit.loadEnds with tables := tables, configState := c } : State).PortsSound := ended.of_ports rfl
  unfold State.endLoad
  dsimp only
  exact (of_ite (installed _ _) (installed _ _)).periodChanged none

/-! ## Ticks (R170) and what they bring about -/

theorem second (h : s.PortsSound) : s.second.PortsSound :=
  h.of_ports (by simp only [State.second])

theorem endSoak (h : s.PortsSound) (c : CellNo) : (s.endSoak c).PortsSound :=
  of_ite (((h.onCell c _).testPreparation none c).serve none c) h

theorem goStale (h : s.PortsSound) (i : Position) : (s.goStale i).PortsSound := by
  unfold State.goStale
  split
  · split
    · dsimp only
      split
      · exact (h.setEntry i _).disturb none _ _
      · exact h.setEntry i _
    · exact h
  · exact h

theorem removeEntry (h : s.PortsSound) (i : Position) : (s.removeEntry i).PortsSound := by
  unfold State.removeEntry
  split
  · exact of_ite (h.setEntry i none) h
  · exact h

theorem takeDue (h : s.PortsSound) (d : Due) : (s.takeDue d).PortsSound := by
  cases d with
  | negotiation c => exact of_ite (h.enterFault c _) h
  | load c => exact of_ite (h.loadFailed none c) h
  | settle c => exact of_ite (h.settleFailed none c) h
  | close c => exact of_ite (h.closeExpired none c) h
  | soak c => exact h.endSoak c
  | stale i => exact h.goStale i
  | removal i => exact h.removeEntry i
  | minute => exact h.minute
  | floorReset => exact h.floorReset

theorem withDue (h : s.PortsSound) (ds : List Due) : ({ s with due := ds } : State).PortsSound := h.of_ports rfl

theorem settle (h : s.PortsSound) : s.settle.PortsSound :=
  (h.withDue []).foldl (fun _ d u => u.takeDue d) s.due

theorem takeListed (h : s.PortsSound) (d : Due) : (s.takeListed d).PortsSound :=
  of_ite ((h.withDue _).takeDue d) h

end State.PortsSound

end Sys2Proof.Machine
end

section
/-! Each request's reader agrees with the format of its entry: it fails exactly where the format's check names an
offence, and with that offset (R9). -/

namespace Sys2Proof.Machine

/-! ## Readings in sequence -/

/-- A field that reads well hands its value and the place behind it on. -/
theorem checked_bind_ok {α β : Type} (a : α) (f : α → Checked β) : ((Except.ok a : Checked α) >>= f) = f a := rfl

theorem checked_bind_assoc {α β γ : Type} (x : Checked α) (f : α → Checked β) (g : β → Checked γ) :
    (x >>= f) >>= g = x >>= fun a => f a >>= g := by
  cases x <;> rfl

/-- A part of a payload that is itself read field by field. -/
theorem Agrees.assoc {α β γ : Type} {x : Checked α} {f : α → Checked β} {g : β → Checked γ} {o : Option Nat}
    (h : Agrees (x >>= fun a => f a >>= g) o) : Agrees ((x >>= f) >>= g) o := by
  rwa [checked_bind_assoc]

/-! ## Further kinds of field -/

/-- One byte spells a number that the byte is. -/
theorem toNat_ofBe_take (xs : List Byte) : (BitVec.ofNat 8 (ofBe (xs.take 1)) : Byte).toNat = ofBe (xs.take 1) := by
  cases xs with
  | nil => rfl
  | cons b bs => simp [ofBe]

theorem ofBe_take_two (xs : List Byte) : ofBe (xs.take 2) < 65536 :=
  (ofBe_lt (xs.take 2)).trans_le (Nat.pow_le_pow_right (by omega) (List.length_take_le 2 xs))

section fields
variable {β : Type} {c : Cursor} {fs : List Field}

/-- A number whose every value is in range, put into another form. -/
theorem Cursor.map_agrees_free {α : Type} {size hi : Nat} {g : Nat → α} {rest : α × Cursor → Checked β}
    (wide : 256 ^ size ≤ hi + 1)
    (h : Agrees (rest (g (ofBe (c.rest.take size)), ⟨c.offset + size, c.rest.drop size⟩))
      (offence fs (c.offset + size) (c.rest.drop size))) :
    Agrees ((c.num size 0 hi >>= fun v => .ok (g v.1, v.2)) >>= rest)
      (offence (free size :: fs) c.offset c.rest) :=
  .assoc (Cursor.num_agrees_free wide fun _ => h)

/-- A temperature whose every value is in range. -/
theorem Cursor.temp_agrees_free {rest : Int × Cursor → Checked β}
    (h : Agrees (rest ((BitVec.ofNat 16 (ofBe (c.rest.take 2))).toInt, ⟨c.offset + 2, c.rest.drop 2⟩))
      (offence fs (c.offset + 2) (c.rest.drop 2))) :
    Agrees (c.temp (-32768) 32767 >>= rest) (offence (free 2 :: fs) c.offset c.rest) := by
  have all : (degrees (-32768) 32767).allowed = fun _ => true := by
    funext n
    have low := BitVec.le_toInt (BitVec.ofNat 16 n)
    have high := BitVec.toInt_lt (x := BitVec.ofNat 16 n)
    exact decide_eq_true ⟨by omega, by omega⟩
  have same : free 2 = degrees (-32768) 32767 := by
    rw [free, ← all]
    rfl
  rw [same]
  exact Cursor.temp_agrees fun _ => h

/-- A flag is set by 1. -/
theorem Cursor.flag_agrees {rest : Bool × Cursor → Checked β}
    (h : ∀ d, (d = true ↔ ofBe (c.rest.take 1) = 1) → Agrees (rest (d, ⟨c.offset + 1, c.rest.drop 1⟩))
      (offence fs (c.offset + 1) (c.rest.drop 1))) :
    Agrees (c.flag >>= rest) (offence (between 1 0 1 :: fs) c.offset c.rest) := by
  refine Cursor.pick_agrees ?_ ?_
  · intro b
    split_ifs <;> simp <;> bv_omega
  · intro d found
    refine h d ?_
    rw [← toNat_ofBe_take c.rest]
    split_ifs at found with zero one
    · cases found
      simp [zero]
    · cases found
      simp [one]

/-- An optional field, whose format the presence byte decides. -/
theorem Cursor.opt_agrees {α : Type} {read : Cursor → Checked (α × Cursor)} {rest : Option α × Cursor → Checked β}
    {present : List Field}
    (here : Agrees (read ⟨c.offset + 1, c.rest.drop 1⟩ >>= fun v => rest (some v.1, v.2))
      (offence present (c.offset + 1) (c.rest.drop 1)))
    (gone : Agrees (rest (none, ⟨c.offset + 1, c.rest.drop 1⟩)) (offence [] (c.offset + 1) (c.rest.drop 1))) :
    Agrees (c.opt read >>= rest)
      (offence (between 1 0 1 :: if ofBe (c.rest.take 1) = 1 then present else []) c.offset c.rest) := by
  refine .assoc (Cursor.flag_agrees fun d set => ?_)
  cases d with
  | true =>
    simp only [← set, if_true, checked_bind_assoc]
    exact here
  | false =>
    simp only [← set]
    exact gone

/-- Parts of one format, one after another. -/
theorem Cursor.many_agrees {α : Type} {read : Cursor → Checked (α × Cursor)} {part : List Field}
    (one : ∀ {β : Type} (c : Cursor) (fs : List Field) (rest : α × Cursor → Checked β),
      (∀ a o bytes, Agrees (rest (a, ⟨o, bytes⟩)) (offence fs o bytes)) →
      Agrees (read c >>= rest) (offence (part ++ fs) c.offset c.rest))
    (n : Nat) {rest : List α × Cursor → Checked β}
    (h : ∀ as o bytes, Agrees (rest (as, ⟨o, bytes⟩)) (offence fs o bytes)) :
    Agrees (Cursor.many read n c >>= rest) (offence ((List.replicate n part).flatten ++ fs) c.offset c.rest) := by
  induction n generalizing c rest with
  | zero => exact h [] c.offset c.rest
  | succ n ih =>
    rw [List.replicate_succ, List.flatten_cons, List.append_assoc]
    exact .assoc (one c _ _ fun a _ _ => .assoc (ih fun as o bytes => h (a :: as) o bytes))

theorem Cursor.bins_agrees {rest : Bins × Cursor → Checked β}
    (h : ∀ v o bytes, Agrees (rest (v, ⟨o, bytes⟩)) (offence fs o bytes)) :
    Agrees (c.bins >>= rest) (offence (List.replicate 16 (free 2) ++ fs) c.offset c.rest) :=
  .assoc (Cursor.many_agrees (part := [free 2]) (fun c _ _ h => Cursor.num_agrees_free (by decide) fun _ => h _ _ _) 16
    fun _ _ _ => h _ _ _)

end fields

/-! ## Enumerated values (12.3) -/

theorem readClass_isSome (b : Byte) : (readClass b).isSome = true ↔ 1 ≤ b.toNat ∧ b.toNat ≤ 2 := by
  unfold readClass
  split_ifs <;> simp <;> bv_omega

theorem readView_isSome (b : Byte) : (readView b).isSome = true ↔ 1 ≤ b.toNat ∧ b.toNat ≤ 4 := by
  unfold readView
  split_ifs <;> simp <;> bv_omega

theorem readMode_isSome (b : Byte) : (readMode b).isSome = true ↔ 0 ≤ b.toNat ∧ b.toNat ≤ 2 := by
  unfold readMode
  split_ifs <;> simp <;> bv_omega

theorem readHoldKind_isSome (b : Byte) : (readHoldKind b).isSome = true ↔ 1 ≤ b.toNat ∧ b.toNat ≤ 7 := by
  unfold readHoldKind
  split_ifs <;> simp <;> bv_omega

theorem readBinClass_isSome (b : Byte) : (readBinClass b).isSome = true ↔ 1 ≤ b.toNat ∧ b.toNat ≤ 3 := by
  unfold readBinClass
  split_ifs <;> simp <;> bv_omega

theorem readWindowKind_isSome (b : Byte) : (readWindowKind b).isSome = true ↔ 1 ≤ b.toNat ∧ b.toNat ≤ 2 := by
  unfold readWindowKind
  split_ifs <;> simp <;> bv_omega

theorem readEndReason_isSome (b : Byte) : (readEndReason b).isSome = true ↔ 1 ≤ b.toNat ∧ b.toNat ≤ 2 := by
  unfold readEndReason
  split_ifs <;> simp <;> bv_omega

theorem readKind_isSome (b : Byte) : (readKind b).isSome = true ↔ 1 ≤ b.toNat ∧ b.toNat ≤ 2 := by
  unfold readKind
  split_ifs <;> simp <;> bv_omega

/-! ## The readers whose format is fixed -/

theorem readEmpty_agrees (payload : List Byte) : Agrees (readEmpty payload) (offence [] 8 payload) :=
  Cursor.finish_agrees (Cursor.start payload) ()

theorem readLotId_agrees (payload : List Byte) : Agrees (readLotId payload) (offence [nonzero] 8 payload) :=
  Cursor.id_agrees (c := .start payload) fun _ => Cursor.finish_agrees _ _

theorem readLpri_agrees (payload : List Byte) :
    Agrees (readLpri payload) (offence (Req.format .lpri payload) 8 payload) :=
  Cursor.id_agrees (c := .start payload) fun _ => Cursor.num_agrees fun _ _ _ => Cursor.finish_agrees _ _

theorem readHold_agrees (payload : List Byte) :
    Agrees (readHold payload) (offence (Req.format .hold payload) 8 payload) :=
  Cursor.id_agrees (c := .start payload) fun _ => Cursor.num_agrees_free (by decide) fun _ => Cursor.finish_agrees _ _

theorem readCell_agrees (payload : List Byte) : Agrees (readCell payload) (offence [between 1 0 15] 8 payload) :=
  Cursor.below_agrees (c := .start payload) fun _ _ => Cursor.finish_agrees _ _

theorem readCdck_agrees (payload : List Byte) :
    Agrees (readCdck payload) (offence (Req.format .cdck payload) 8 payload) :=
  Cursor.below_agrees (c := .start payload) fun _ _ => Cursor.id_agrees fun _ => Cursor.id_agrees fun _ =>
    Cursor.finish_agrees _ _

theorem readCmod_agrees (payload : List Byte) :
    Agrees (readCmod payload) (offence (Req.format .cmod payload) 8 payload) :=
  Cursor.below_agrees (c := .start payload) fun _ _ => Cursor.pick_agrees readMode_isSome fun _ _ =>
    Cursor.finish_agrees _ _

theorem readCsen_agrees (payload : List Byte) :
    Agrees (readCsen payload) (offence (Req.format .csen payload) 8 payload) :=
  Cursor.below_agrees (c := .start payload) fun _ _ => Cursor.below_agrees fun _ _ => Cursor.finish_agrees _ _

theorem readQeqp_agrees (payload : List Byte) :
    Agrees (readQeqp payload) (offence (Req.format .qeqp payload) 8 payload) :=
  Cursor.map_agrees_free (c := .start payload) (by decide) (Cursor.finish_agrees _ _)

theorem readWwin_agrees (payload : List Byte) :
    Agrees (readWwin payload) (offence (Req.format .wwin payload) 8 payload) :=
  Cursor.below_agrees (c := .start payload) fun _ _ => Cursor.pick_agrees readWindowKind_isSome fun _ _ =>
    Cursor.num_agrees fun _ _ _ => Cursor.num_agrees fun _ _ _ => Cursor.finish_agrees _ _

theorem readEcnf_agrees (payload : List Byte) :
    Agrees (readEcnf payload) (offence (Req.format .ecnf payload) 8 payload) :=
  Cursor.below_agrees (c := .start payload) fun _ _ => Cursor.map_agrees_free (by decide)
    (Cursor.temp_agrees_free (Cursor.temp_agrees_free (Cursor.num_agrees_free (by decide) fun _ =>
      Cursor.map_agrees_free (by decide) (Cursor.map_agrees_free (by decide) (Cursor.finish_agrees _ _)))))

theorem readProgram_agrees (payload : List Byte) :
    Agrees (readProgram payload) (offence [between 1 0 15, nonzero] 8 payload) :=
  Cursor.below_agrees (c := .start payload) fun _ _ => Cursor.id_agrees fun _ => Cursor.finish_agrees _ _

theorem readEtmp_agrees (payload : List Byte) :
    Agrees (readEtmp payload) (offence (Req.format .etmp payload) 8 payload) :=
  Cursor.below_agrees (c := .start payload) fun _ _ => Cursor.temp_agrees fun _ => Cursor.finish_agrees _ _

theorem readErnd_agrees (payload : List Byte) :
    Agrees (readErnd payload) (offence (Req.format .ernd payload) 8 payload) :=
  Cursor.below_agrees (c := .start payload) fun _ _ => Cursor.num_agrees_free (by decide) fun _ =>
    Cursor.num_agrees_free (by decide) fun _ => Cursor.pick_agrees readEndReason_isSome fun _ _ =>
      Cursor.finish_agrees _ _

theorem readWbpl_agrees (payload : List Byte) :
    Agrees (readWbpl payload) (offence (Req.format .wbpl payload) 8 payload) :=
  Cursor.below_agrees (c := .start payload) fun _ _ =>
    Cursor.many_agrees (part := [between 1 1 3, between 2 0 10000]) (fun _ _ _ h => .assoc
      (Cursor.pick_agrees readBinClass_isSome fun _ _ => .assoc (Cursor.num_agrees fun _ _ _ => h _ _ _))) 16
      fun _ _ _ => Cursor.finish_agrees _ _

/-! ## The readers whose format the payload decides -/

theorem Cursor.restore_agrees {β : Type} {c : Cursor} {fs : List Field} {rest : Restore × Cursor → Checked β}
    (h : ∀ r o bytes, Agrees (rest (r, ⟨o, bytes⟩)) (offence fs o bytes)) :
    Agrees (c.restore >>= rest)
      (offence (between 1 0 3 :: (List.replicate 34 (free 2) ++ fs)) c.offset c.rest) :=
  .assoc (Cursor.num_agrees fun _ _ _ => .assoc (Cursor.num_agrees_free (by decide) fun _ =>
    .assoc (Cursor.num_agrees_free (by decide) fun _ => .assoc (Cursor.bins_agrees fun _ _ _ =>
      .assoc (Cursor.bins_agrees fun _ _ _ => h _ _ _)))))

theorem readLent_agrees (payload : List Byte) :
    Agrees (readLent payload) (offence (Req.format .lent payload) 8 payload) := by
  refine Cursor.id_agrees (c := .start payload) fun _ => Cursor.below_agrees fun _ _ =>
    Cursor.pick_agrees readClass_isSome fun _ _ => Cursor.num_agrees fun _ _ _ => Cursor.num_agrees fun _ _ _ => ?_
  simp only [List.drop_drop]
  exact Cursor.opt_agrees (Cursor.restore_agrees fun _ _ _ => Cursor.finish_agrees _ _) (Cursor.finish_agrees _ _)

theorem readClks_agrees (payload : List Byte) :
    Agrees (readClks payload) (offence (Req.format .clks payload) 8 payload) :=
  Cursor.opt_agrees (c := .start payload) (Cursor.num_agrees fun _ _ _ => Cursor.finish_agrees _ _)
    (Cursor.finish_agrees _ _)

theorem readQres_agrees (payload : List Byte) :
    Agrees (readQres payload) (offence (Req.format .qres payload) 8 payload) :=
  Cursor.id_agrees (c := .start payload) fun _ => Cursor.num_agrees fun _ _ _ => Cursor.num_agrees fun _ _ _ =>
    Cursor.finish_agrees _ _

/-! ### QLOT and HCLR -/

theorem viewOf_holds (payload : List Byte) : viewOf payload = .holds ↔ spelled payload 0 1 = 3 := by
  cases payload with
  | nil => decide
  | cons b bs =>
    simp only [viewOf, List.head?_cons, Option.bind_some, readView, spelled, List.drop_zero, List.take_succ_cons,
      List.take_zero, ofBe, List.foldl_cons, List.foldl_nil]
    split_ifs <;> simp <;> bv_omega

theorem qlot_format {payload : List Byte} (other : viewOf payload ≠ .holds) :
    Req.format .qlot payload = [between 1 1 4, nonzero] := by
  have view : spelled payload 0 1 ≠ 3 := fun three => other ((viewOf_holds payload).2 three)
  simp [Req.format, view]

theorem readQlotLot_agrees {payload : List Byte} (other : viewOf payload ≠ .holds) :
    Agrees (readQlotLot payload) (offence (Req.format .qlot payload) 8 payload) := by
  rw [qlot_format other]
  exact Cursor.pick_agrees (c := .start payload) readView_isSome fun _ _ => Cursor.id_agrees fun _ =>
    Cursor.finish_agrees _ _

theorem readQlotList_agrees {payload : List Byte} (other : viewOf payload ≠ .holds) :
    Agrees (readQlotList payload) (offence (Req.format .qlot payload) 8 payload) := by
  rw [qlot_format other]
  exact Cursor.pick_agrees (c := .start payload) readView_isSome fun _ _ => Cursor.id_agrees fun _ =>
    Cursor.finish_agrees _ _

theorem readQlotHolds_agrees {payload : List Byte} (holds : viewOf payload = .holds) :
    Agrees (readQlotHolds payload) (offence (Req.format .qlot payload) 8 payload) := by
  have format : Req.format .qlot payload = [between 1 1 4, nonzero, between 1 0 63] := by
    simp [Req.format, (viewOf_holds payload).1 holds]
  rw [format]
  exact Cursor.pick_agrees (c := .start payload) readView_isSome fun _ _ => Cursor.id_agrees fun _ =>
    Cursor.num_agrees fun _ _ _ => Cursor.finish_agrees _ _

/-- The byte that reads as a kind of hold is the kind's. -/
theorem byte_of_readHoldKind {b : Byte} {kind : HoldKind} (read : readHoldKind b = some kind) : b = kind.byte := by
  unfold readHoldKind at read
  split_ifs at read <;> cases read <;> assumption

theorem readDisposition_isSome (b : Byte) (kind : HoldKind) :
    ((readDisposition b).filter fun d => d = .none || kind = .qa).isSome = true
      ↔ 0 ≤ b.toNat ∧ b.toNat ≤ if kind.byte.toNat = 2 then 2 else 0 := by
  have qa : kind.byte.toNat = 2 ↔ kind = .qa := by cases kind <;> decide
  simp only [qa]
  unfold readDisposition
  by_cases isQa : kind = .qa
  · simp only [isQa, if_true]
    split_ifs <;> simp <;> bv_omega
  · simp only [isQa, if_false]
    split_ifs <;> simp <;> bv_omega

/-- HCLR's argument is checked by the kind of the hold (R145). -/
theorem Cursor.arg_agrees {β : Type} {c : Cursor} {fs : List Field} {rest : Nat × Cursor → Checked β} (kind : HoldKind)
    (h : Agrees (rest (ofBe (c.rest.take 2), ⟨c.offset + 2, c.rest.drop 2⟩))
      (offence fs (c.offset + 2) (c.rest.drop 2))) :
    Agrees (c.num 2 kind.argRange.1 kind.argRange.2 >>= rest)
      (offence (argFormat kind.byte.toNat :: fs) c.offset c.rest) := by
  cases kind with
  | operator => exact Cursor.num_agrees_free (by decide) fun _ => h
  | qa | yield | bin | site | reconcile | cell => exact Cursor.num_agrees fun _ _ _ => h

theorem readHclr_agrees (payload : List Byte) :
    Agrees (readHclr payload) (offence (Req.format .hclr payload) 8 payload) := by
  refine Cursor.id_agrees (c := .start payload) fun _ => Cursor.pick_agrees readHoldKind_isSome fun kind read => ?_
  have byte : spelled payload 4 1 = kind.byte.toNat := by
    rw [← byte_of_readHoldKind read, toNat_ofBe_take]
    rfl
  simp only [byte]
  exact Cursor.arg_agrees kind (Cursor.pick_agrees (fun b => readDisposition_isSome b kind) fun _ _ =>
    Cursor.finish_agrees _ _)

/-! ### WPAR and WPRD -/

/-- A number that is 0 or lies in a range above 0: what is read behind it refuses the gap between the two. -/
theorem Cursor.num_agrees_or_zero {β : Type} {c : Cursor} {size lo hi : Nat} {fs : List Field}
    {rest : Nat × Cursor → Checked β} (gap : ∀ n c', 1 ≤ n ∧ n < lo → rest (n, c') = .error c.offset)
    (h : (ofBe (c.rest.take size) = 0 ∨ lo ≤ ofBe (c.rest.take size)) →
      Agrees (rest (ofBe (c.rest.take size), ⟨c.offset + size, c.rest.drop size⟩))
        (offence fs (c.offset + size) (c.rest.drop size))) :
    Agrees (c.num size 0 hi >>= rest)
      (offence (⟨size, fun n => decide (n = 0 ∨ (lo ≤ n ∧ n ≤ hi))⟩ :: fs) c.offset c.rest) := by
  rw [Cursor.num_eq, offence]
  generalize ofBe (c.rest.take size) = n at *
  by_cases whole : size ≤ c.rest.length ∧ 0 ≤ n ∧ n ≤ hi
  · rw [if_pos whole, checked_bind_ok]
    by_cases low : 1 ≤ n ∧ n < lo
    · have out : ¬(n = 0 ∨ (lo ≤ n ∧ n ≤ hi)) := by omega
      simp [gap n _ low, out, Agrees]
    · have range : n = 0 ∨ (lo ≤ n ∧ n ≤ hi) := by omega
      simpa [whole.1, range] using h (by omega)
  · have out : ¬(size ≤ c.rest.length ∧ (n = 0 ∨ (lo ≤ n ∧ n ≤ hi))) := by omega
    rw [if_neg whole]
    simp [out, Agrees, bind, Except.bind]

theorem readWpar_agrees (payload : List Byte) :
    Agrees (readWpar payload) (offence (Req.format .wpar payload) 8 payload) := by
  refine Cursor.num_agrees_or_zero (c := .start payload) (lo := 5) ?_ fun range => ?_
  · exact fun n c' low => if_pos (by omega)
  · have passed : ¬(1 ≤ ofBe (payload.take 2) ∧ ofBe (payload.take 2) ≤ 4) := by
      change ofBe (payload.take 2) = 0 ∨ 5 ≤ ofBe (payload.take 2) at range
      omega
    simp only [Cursor.start, passed, if_false]
    refine Cursor.num_agrees fun _ _ _ => Cursor.num_agrees fun _ _ _ => Cursor.num_agrees fun _ _ _ =>
      Cursor.num_agrees fun _ _ _ => Cursor.num_agrees_free (by decide) fun _ => Cursor.num_agrees fun _ _ _ =>
      Cursor.num_agrees fun _ _ _ => ?_
    simp only [List.drop_drop]
    exact Cursor.opt_agrees (Cursor.num_agrees fun _ _ _ => Cursor.finish_agrees _ _) (Cursor.finish_agrees _ _)

/-! ### Fields whose place in the payload counts

The format of a field may depend on what an earlier field spells. Here a cursor is known by its place in the payload,
and what is read behind a field is read at any cursor of the place behind it. -/

section placed
variable {β : Type} {c : Cursor} {fs : List Field} {payload : List Byte} {k : Nat}

theorem Cursor.drop_rest (at_k : c.rest = payload.drop k) (size : Nat) :
    c.rest.drop size = payload.drop (k + size) := by
  rw [at_k, List.drop_drop]

theorem Cursor.spelled_rest (at_k : c.rest = payload.drop k) (size : Nat) :
    ofBe (c.rest.take size) = spelled payload k size := by
  rw [at_k, spelled]

theorem Cursor.num_agrees_at {size lo hi : Nat} {rest : Nat × Cursor → Checked β} (at_k : c.rest = payload.drop k)
    (h : ∀ n c', c'.rest = payload.drop (k + size) → n = spelled payload k size → n ≤ hi →
      Agrees (rest (n, c')) (offence fs c'.offset c'.rest)) :
    Agrees (c.num size lo hi >>= rest) (offence (between size lo hi :: fs) c.offset c.rest) :=
  Cursor.num_agrees fun _ _ top => h _ ⟨_, _⟩ (Cursor.drop_rest at_k size) (Cursor.spelled_rest at_k size) top

theorem Cursor.num_agrees_free_at {size hi : Nat} {rest : Nat × Cursor → Checked β} (at_k : c.rest = payload.drop k)
    (wide : 256 ^ size ≤ hi + 1)
    (h : ∀ n c', c'.rest = payload.drop (k + size) → Agrees (rest (n, c')) (offence fs c'.offset c'.rest)) :
    Agrees (c.num size 0 hi >>= rest) (offence (free size :: fs) c.offset c.rest) :=
  Cursor.num_agrees_free wide fun _ => h _ ⟨_, _⟩ (Cursor.drop_rest at_k size)

/-- A family or plan index of a product entry: a byte up to a limit. -/
theorem Cursor.pick_agrees_at {n hi : Nat} {bound : ∀ b : Byte, b.toNat ≤ hi → b.toNat < n}
    {rest : Fin n × Cursor → Checked β} (at_k : c.rest = payload.drop k)
    (h : ∀ a c', c'.rest = payload.drop (k + 1) → Agrees (rest (a, c')) (offence fs c'.offset c'.rest)) :
    Agrees (c.pick (fun b => if h : b.toNat ≤ hi then some ⟨b.toNat, bound b h⟩ else none) >>= rest)
      (offence (between 1 0 hi :: fs) c.offset c.rest) := by
  refine Cursor.pick_agrees (fun b => ?_) fun a _ => h a ⟨_, _⟩ (Cursor.drop_rest at_k 1)
  split_ifs with within <;> simp [within]

/-- What reading a temperature comes to. -/
theorem Cursor.temp_eq (c : Cursor) (lo hi : Int) : c.temp lo hi =
    if 2 ≤ c.rest.length ∧ (degrees lo hi).allowed (ofBe (c.rest.take 2)) = true then
      .ok ((BitVec.ofNat 16 (ofBe (c.rest.take 2))).toInt, ⟨c.offset + 2, c.rest.drop 2⟩)
    else .error c.offset := by
  have bound := ofBe_take_two c.rest
  by_cases whole : 2 ≤ c.rest.length
  · have all : 2 ≤ c.rest.length ∧ 0 ≤ ofBe (c.rest.take 2) ∧ ofBe (c.rest.take 2) ≤ 65535 := by omega
    rw [Cursor.temp, Cursor.num_eq, if_pos all, checked_bind_ok]
    simp [degrees, whole]
  · simp [Cursor.temp, Cursor.num_eq, whole, bind, Except.bind]

theorem Cursor.temp_agrees_at {lo hi : Int} {rest : Int × Cursor → Checked β} (at_k : c.rest = payload.drop k)
    (h : ∀ t c', c'.rest = payload.drop (k + 2) → t = (BitVec.ofNat 16 (spelled payload k 2)).toInt → lo ≤ t →
      Agrees (rest (t, c')) (offence fs c'.offset c'.rest)) :
    Agrees (c.temp lo hi >>= rest) (offence (degrees lo hi :: fs) c.offset c.rest) := by
  rw [Cursor.temp_eq]
  refine Cursor.field_agrees ?_ ?_ ?_
  · intro short
    exact if_neg fun all => Nat.not_le.2 short all.1
  · intro _ out
    exact if_neg fun all => Bool.false_ne_true (out.symm.trans all.2)
  · intro whole allowed
    obtain ⟨low, -⟩ := of_decide_eq_true allowed
    exact ⟨_, if_pos ⟨whole, allowed⟩, h _ ⟨_, _⟩ (Cursor.drop_rest at_k 2)
      (by rw [Cursor.spelled_rest at_k]) low⟩

/-- A temperature of 0 degrees is spelled by 0. -/
theorem Cursor.temp_agrees_zero {rest : Int × Cursor → Checked β} (at_k : c.rest = payload.drop k)
    (h : ∀ t c', c'.rest = payload.drop (k + 2) → Agrees (rest (t, c')) (offence fs c'.offset c'.rest)) :
    Agrees (c.temp 0 0 >>= rest) (offence (between 2 0 0 :: fs) c.offset c.rest) := by
  have bound := ofBe_take_two c.rest
  have zero : (0 ≤ (BitVec.ofNat 16 (ofBe (c.rest.take 2))).toInt
      ∧ (BitVec.ofNat 16 (ofBe (c.rest.take 2))).toInt ≤ 0) ↔ 0 ≤ ofBe (c.rest.take 2) ∧ ofBe (c.rest.take 2) ≤ 0 := by
    rw [BitVec.toInt_eq_toNat_cond, BitVec.toNat_ofNat, Nat.mod_eq_of_lt bound]
    split <;> omega
  have same : offence (degrees 0 0 :: fs) c.offset c.rest = offence (between 2 0 0 :: fs) c.offset c.rest := by
    simp only [offence, degrees, between, zero]
    rfl
  rw [← same]
  exact Cursor.temp_agrees fun _ => h _ ⟨_, _⟩ (Cursor.drop_rest at_k 2)

theorem readWprd_agrees (payload : List Byte) :
    Agrees (readWprd payload) (offence (Req.format .wprd payload) 8 payload) := by
  refine Cursor.below_agrees (c := .start payload) fun _ _ => .assoc (Cursor.flag_agrees fun d set => ?_)
  change Agrees _ (offence (productFormat (decide (spelled payload 1 1 = 1)) (spelled payload 23 2)) _ _)
  have defined : decide (spelled payload 1 1 = 1) = d := Bool.eq_iff_iff.2 (decide_eq_true_iff.trans set.symm)
  rw [defined]
  have at_2 : ((payload.drop 1).drop 1) = payload.drop 2 := List.drop_drop
  cases d with
  | false =>
    refine .assoc (Cursor.pick_agrees_at at_2 fun _ c h => .assoc (Cursor.temp_agrees_zero h fun _ c h => ?_))
    refine .assoc (Cursor.num_agrees_at h fun _ c h _ _ => .assoc (Cursor.num_agrees_at h fun _ c h _ _ => ?_))
    refine .assoc (Cursor.num_agrees_at h fun _ c h _ _ => .assoc (Cursor.pick_agrees_at h fun _ c h => ?_))
    refine .assoc (Cursor.num_agrees_at h fun _ c h _ _ => .assoc (Cursor.num_agrees_at h fun _ c h _ _ => ?_))
    refine .assoc (Cursor.num_agrees_at h fun _ c h _ _ => .assoc (Cursor.num_agrees_at h fun _ c h _ _ => ?_))
    refine .assoc (Cursor.num_agrees_at h fun _ c h _ _ => .assoc (Cursor.num_agrees_at h fun _ c h _ least => ?_))
    rw [Nat.le_zero.1 least]
    refine .assoc (Cursor.num_agrees_at h fun _ c h _ _ => .assoc (Cursor.num_agrees_at h fun _ c h _ _ => ?_))
    exact .assoc (Cursor.num_agrees_at h fun _ c h _ _ => .assoc (Cursor.num_agrees_at h fun _ c h _ _ =>
      Cursor.finish_agrees _ _))
  | true =>
    refine .assoc (Cursor.pick_agrees_at at_2 fun _ c h => .assoc (Cursor.temp_agrees_at h fun _ c h _ _ => ?_))
    refine .assoc (Cursor.num_agrees_free_at h (by decide) fun _ c h => ?_)
    refine .assoc (Cursor.num_agrees_free_at h (by decide) fun _ c h => ?_)
    refine .assoc (Cursor.num_agrees_at h fun _ c h _ _ => .assoc (Cursor.pick_agrees_at h fun _ c h => ?_))
    refine .assoc (Cursor.num_agrees_at h fun _ c h _ _ => .assoc (Cursor.num_agrees_at h fun _ c h _ _ => ?_))
    refine .assoc (Cursor.num_agrees_at h fun _ c h _ _ => .assoc (Cursor.num_agrees_at h fun _ c h _ _ => ?_))
    refine .assoc (Cursor.num_agrees_at h fun _ c h _ _ => .assoc (Cursor.num_agrees_at h fun _ c h least _ => ?_))
    rw [least]
    refine .assoc (Cursor.num_agrees_at h fun _ c h _ _ => .assoc (Cursor.num_agrees_at h fun _ c h _ _ => ?_))
    exact .assoc (Cursor.num_agrees_at h fun _ c h _ _ => .assoc (Cursor.num_agrees_at h fun _ c h _ _ =>
      Cursor.finish_agrees _ _))

/-! ### Ability records and EBIN -/

/-- The byte that reads as a kind of equipment is the kind's. -/
theorem byte_of_readKind {b : Byte} {kind : EquipKind} (read : readKind b = some kind) : b = kind.byte := by
  unfold readKind at read
  split_ifs at read <;> cases read <;> assumption

/-- An ability record, behind the byte of its kind (R21). -/
theorem Cursor.ability_agrees {kind : EquipKind} {rest : Ability × Cursor → Checked β} (at_k : c.rest = payload.drop k)
    (byte : spelled payload (k - 1) 1 = kind.byte.toNat)
    (h : ∀ a c', Agrees (rest (a, c')) (offence [] c'.offset c'.rest)) :
    Agrees (c.ability kind >>= rest) (offence (abilityFormat payload k) c.offset c.rest) := by
  unfold abilityFormat
  cases kind with
  | handler =>
    have one : spelled payload (k - 1) 1 = 1 := byte
    rw [if_pos one]
    refine .assoc (.assoc (Cursor.num_agrees_free_at at_k (by decide) fun _ c at_lo => ?_))
    refine .assoc (Cursor.temp_agrees_at at_lo fun lo c at_hi value low => ?_)
    dsimp only
    rw [← value, max_eq_left low]
    exact .assoc (Cursor.temp_agrees_at at_hi fun _ c at_sites _ _ => .assoc (Cursor.num_agrees_at at_sites
      fun _ c at_kit _ _ => .assoc (Cursor.num_agrees_at at_kit fun _ _ _ _ _ => h _ _)))
  | tester =>
    have other : ¬spelled payload (k - 1) 1 = 1 := by
      rw [byte]
      decide
    rw [if_neg other]
    exact .assoc (Cursor.num_agrees fun _ _ _ => .assoc (Cursor.map_agrees_free (by decide)
      (.assoc (Cursor.map_agrees_free (by decide) (h _ ⟨_, _⟩)))))

theorem readEann_agrees (payload : List Byte) :
    Agrees (readEann payload) (offence (Req.format .eann payload) 8 payload) := by
  refine Cursor.pick_agrees (c := .start payload) readKind_isSome fun kind read =>
    Cursor.ability_agrees (k := 1) rfl ?_ fun _ _ => Cursor.finish_agrees _ _
  rw [← byte_of_readKind read, toNat_ofBe_take]
  rfl

theorem readEabl_agrees (payload : List Byte) :
    Agrees (readEabl payload) (offence (Req.format .eabl payload) 8 payload) := by
  refine Cursor.below_agrees (c := .start payload) fun _ _ => Cursor.pick_agrees readKind_isSome fun kind read =>
    Cursor.ability_agrees (k := 2) List.drop_drop ?_ fun _ _ => Cursor.finish_agrees _ _
  rw [← byte_of_readKind read, toNat_ofBe_take]
  rfl

/-- How many bytes the next EBIN entry has (R196). -/
def Cursor.entrySize (c : Cursor) : Nat := if spelled c.rest 0 1 < 128 then 2 else 3

/-- What reading an EBIN entry comes to. -/
theorem Cursor.binEntry_cases (c : Cursor) :
    (c.rest.length < c.entrySize ∧ c.binEntry = .error c.offset)
    ∨ (c.entrySize ≤ c.rest.length
      ∧ ∃ e, c.binEntry = .ok (e, ⟨c.offset + c.entrySize, c.rest.drop c.entrySize⟩)) := by
  obtain ⟨o, bytes⟩ := c
  match bytes with
  | [] => exact .inl ⟨by simp [Cursor.entrySize, spelled, ofBe], rfl⟩
  | [first] =>
    refine .inl ⟨?_, rfl⟩
    unfold Cursor.entrySize
    split <;> simp
  | first :: second :: more =>
    have byte : spelled (first :: second :: more) 0 1 = first.toNat := by simp [spelled, ofBe]
    by_cases untagged : first.toNat < 128
    · have size : (⟨o, first :: second :: more⟩ : Cursor).entrySize = 2 := by simp [Cursor.entrySize, byte, untagged]
      rw [size]
      exact .inr ⟨by simp, _, if_pos untagged⟩
    · have size : (⟨o, first :: second :: more⟩ : Cursor).entrySize = 3 := by simp [Cursor.entrySize, byte, untagged]
      rw [size]
      cases more with
      | nil => exact .inl ⟨by simp, if_neg untagged⟩
      | cons third more => exact .inr ⟨by simp, _, if_neg untagged⟩

theorem Cursor.entries_agrees (n : Nat) {rest : List BinEntry × Cursor → Checked β}
    (h : ∀ es c', Agrees (rest (es, c')) (offence [] c'.offset c'.rest)) :
    Agrees (Cursor.many Cursor.binEntry n c >>= rest) (offence (entryFormat n c.rest) c.offset c.rest) := by
  induction n generalizing c rest with
  | zero => exact h [] c
  | succ n ih =>
    refine .assoc (Cursor.field_agrees (f := free c.entrySize) ?_ ?_ ?_)
    · intro short
      rcases c.binEntry_cases with ⟨-, error⟩ | ⟨whole, -⟩
      · exact error
      · exact absurd short (Nat.not_lt.2 whole)
    · intro _ out
      cases out
    · intro whole _
      rcases c.binEntry_cases with ⟨short, -⟩ | ⟨-, e, read⟩
      · exact absurd short (Nat.not_lt.2 whole)
      · exact ⟨e, read, .assoc (ih fun es c' => h (e :: es) c')⟩

theorem readEbin_agrees (payload : List Byte) :
    Agrees (readEbin payload) (offence (Req.format .ebin payload) 8 payload) := by
  refine Cursor.id_agrees (c := .start payload) fun _ => Cursor.num_agrees_free_at (k := 4) rfl (by decide)
    fun _ c at_count => Cursor.num_agrees_at at_count fun count c at_entries value _ => ?_
  have format : entryFormat (spelled payload 6 1) (payload.drop 7) = entryFormat count c.rest := by
    rw [at_entries, value]
    rfl
  change Agrees _ (offence (entryFormat (spelled payload 6 1) (payload.drop 7)) _ _)
  rw [format]
  exact Cursor.entries_agrees count fun _ _ => Cursor.finish_agrees _ _

end placed

/-! ## A row's reader -/

/-- The reader of a row's request fails exactly where the request's format is offended, on every payload of the
row. -/
def ReadsFormat {α : Type} (r : Req) (mine : List Byte → Bool) (read : List Byte → Checked α) : Prop :=
  ∀ payload, mine payload = true → Agrees (read payload) (offence (r.format payload) 8 payload)

theorem ReadsFormat.of_agrees {α : Type} {r : Req} {mine : List Byte → Bool} {read : List Byte → Checked α}
    (agrees : ∀ payload, Agrees (read payload) (offence (r.format payload) 8 payload)) : ReadsFormat r mine read :=
  fun payload _ => agrees payload

/-- A view other than HOLDS reads the shorter format of QLOT. -/
theorem ReadsFormat.of_view {α : Type} {read : List Byte → Checked α} {view : View} (other : view ≠ .holds)
    (agrees : ∀ payload, viewOf payload ≠ .holds →
      Agrees (read payload) (offence (Req.format .qlot payload) 8 payload)) :
    ReadsFormat .qlot (fun b => viewOf b = view) read :=
  fun payload mine => agrees payload (of_decide_eq_true mine ▸ other)

theorem readsFormat_qlotHolds : ReadsFormat .qlot (fun b => viewOf b = .holds) readQlotHolds :=
  fun _ mine => readQlotHolds_agrees (of_decide_eq_true mine)

end Sys2Proof.Machine
end

section
/-! Every request, every event and every step keeps the port units within their limits. -/

namespace Sys2Proof.Machine

/-- What the owner of a record makes of a request keeps every port unit within its limits. -/
def KeepsPorts {α : Type} (owner : Owner α) : Prop := ∀ f a s, s.PortsSound → (owner f a s).1.PortsSound

/-! ## The examination of a request (R8) -/

namespace State.PortsSound

variable {s : State} {α : Type} {owner : Owner α}

theorem reportReturn (h : s.PortsSound) (c : Option CellNo) (id : Id) : (s.reportReturn c id).PortsSound := by
  cases c with
  | none => exact h
  | some c => exact h.memberReturn c id

theorem refuse (h : s.PortsSound) (p : Port) (r : Req) (code : SenseCode) (a : BitVec 32) :
    (s.refuse p r code a).PortsSound := h.answer p _ _

theorem checkFields (h : s.PortsSound) (keeps : KeepsPorts owner) (p : Port) (r : Req)
    (read : List Byte → Checked α) (f : Frame) : (s.checkFields p r read owner f).PortsSound := by
  unfold State.checkFields
  split
  · exact h.refuse p r _ _
  · exact (keeps _ _ _ h).answer p _ _

theorem checkKnown (h : s.PortsSound) (keeps : KeepsPorts owner) (p : Port) (r : Req)
    (read : List Byte → Checked α) (f : Frame) (i : Position) (e : Entry) :
    (s.checkKnown p r read owner f i e).PortsSound := by
  unfold State.checkKnown
  dsimp only
  split
  · exact ((h.setEntry i _).reportReturn _ _).refuse p r _ _
  · exact ((keeps _ _ _ (h.setEntry i _)).reportReturn _ _).answer p _ _

theorem checkSender (h : s.PortsSound) (keeps : KeepsPorts owner) (p : Port) (r : Req)
    (read : List Byte → Checked α) (f : Frame) : (s.checkSender p r read owner f).PortsSound := by
  unfold State.checkSender
  split
  · exact h.refuse p r _ _
  · split
    · exact of_ite (h.checkFields keeps p r read f) (h.refuse p r _ _)
    · exact of_ite (h.refuse p r _ _) (of_ite (h.checkFields keeps p r read f) (h.checkKnown keeps p r read f _ _))

theorem examine (h : s.PortsSound) (keeps : KeepsPorts owner) (p : Port) (r : Req)
    (read : List Byte → Checked α) (v : Service) : (s.examine p r read owner v).PortsSound :=
  of_ite (h.answerStartUp p _) <| of_ite (h.refuse p r _ _) <|
    of_ite (of_ite (h.refuse p r _ _) (h.checkFields keeps p r read _)) (h.checkSender keeps p r read _)

theorem request (h : s.PortsSound) (keeps : KeepsPorts owner) (p : Port) (r : Req) (mine : List Byte → Bool)
    (read : List Byte → Checked α) : (s.request p r mine read owner).PortsSound := by
  unfold State.request
  dsimp only
  split
  · exact of_ite (h.settle.examine keeps p r read _) h.settle
  · exact h.settle

theorem freeLot (h : s.PortsSound) (l : Lot) (cause : Cause) : (s.freeLot l cause).PortsSound := by
  have freed (lots : List Lot) : ({ (s.leaveQueue l.id).removeHoldsOf l.id with lots := lots } : State).PortsSound :=
    h.of_ports rfl
  exact (freed _).notify _ _

end State.PortsSound

/-! ## The owners of the requests -/

open State (PortsSound)

/-- Two outcomes of a test. -/
theorem portsSound_ite {c : Prop} [Decidable c] {x y : State × Reply} (h : x.1.PortsSound) (k : y.1.PortsSound) :
    (if c then x else y).1.PortsSound := by
  split
  · exact h
  · exact k

theorem lentConfigured_keepsPorts : KeepsPorts lentConfigured := by
  intro f a s h
  have joined (lots : List Lot) (n : Stamp) : ({ s with lots := lots, sequence := n } : State).PortsSound :=
    h.of_ports rfl
  refine portsSound_ite h (portsSound_ite h (portsSound_ite h (portsSound_ite h ?_)))
  exact .of_ite ((((joined _ _).nlot _ _).checkRatios _ _).decideSample _) (((joined _ _).nlot _ _).joinAndOffer _ _)

theorem afterReattempt_keepsPorts {α : Type} {owner : Owner α} (keeps : KeepsPorts owner) :
    KeepsPorts (afterReattempt owner) :=
  fun f a s h => portsSound_ite (h.of_ports rfl) (keeps f a s h)

theorem lremOwner_keepsPorts : KeepsPorts lremOwner := by
  intro f id s h
  unfold lremOwner
  split
  · exact h
  · exact portsSound_ite h (h.freeLot _ _)

theorem lpriOwner_keepsPorts : KeepsPorts lpriOwner := by
  intro f a s h
  unfold lpriOwner
  split
  · exact h
  · exact .of_ite (((h.onLot _ _).recomputeLot _).offer _ _) (h.onLot _ _)

theorem lshtOwner_keepsPorts : KeepsPorts lshtOwner := by
  intro f id s h
  unfold lshtOwner
  split
  · exact h
  · refine portsSound_ite h ?_
    dsimp only
    split
    · exact h.onLot _ _
    · exact (((((h.onLot _ _).onLot _ _).leaveQueue _).nlot _ _).checkRatios _ _).decideSample _

theorem qlotSummaryOwner_keepsPorts : KeepsPorts qlotSummaryOwner := by
  intro f id s h
  unfold qlotSummaryOwner
  split <;> exact h

theorem qlotCountsOwner_keepsPorts : KeepsPorts qlotCountsOwner := by
  intro f id s h
  unfold qlotCountsOwner
  split <;> exact h

theorem qlotHoldsOwner_keepsPorts : KeepsPorts qlotHoldsOwner := by
  intro f a s h
  unfold qlotHoldsOwner
  split <;> exact h

theorem qlotListOwner_keepsPorts : KeepsPorts qlotListOwner := fun _ _ _ h => h

theorem holdOwner_keepsPorts (p : Port) : KeepsPorts (holdOwner p) := by
  intro f a s h
  unfold holdOwner
  dsimp only
  split
  · exact h
  · exact portsSound_ite h (portsSound_ite h (h.appendHold _))

theorem State.PortsSound.dispose {s : State} (h : s.PortsSound) (id : Id) (d : Disposition) :
    (s.dispose id d).PortsSound := by
  cases d with
  | none => exact h
  | accept => exact (h.onLot id _).nlot id _
  | resample => exact (h.onLot id _).nlot id _

theorem hclrOwner_keepsPorts (p : Port) : KeepsPorts (hclrOwner p) := by
  intro f a s h
  unfold hclrOwner
  split
  · exact h
  · have disposed := ((h.removeHold a.lot a.kind a.arg).nlot a.lot .holdCleared (some (a.kind, a.arg))).dispose a.lot
      a.disposition
    exact portsSound_ite h (portsSound_ite h (portsSound_ite h (.of_ite (disposed.becomeUnheld _ _) disposed)))

theorem hovcOwner_keepsPorts : KeepsPorts hovcOwner := by
  intro f id s h
  unfold hovcOwner
  split
  · exact h
  · have cleared := (h.onLot id fun l => { l with overflow := false }).nlot id .overflowCleared
    exact portsSound_ite h (.of_ite (cleared.becomeUnheld _ _) cleared)

theorem cdckConfigured_keepsPorts : KeepsPorts cdckConfigured := by
  intro f a s h
  refine portsSound_ite h (portsSound_ite h ?_)
  split
  · exact h
  · exact (((h.onEquip _ _).onEquip _ _).onCell _ _).enterOffer _

theorem cundOwner_keepsPorts : KeepsPorts cundOwner := by
  intro f c s h
  refine portsSound_ite h ?_
  cases state : (s.cell c).state with
  | idle | paused | lost | fault => exact h.undock _ c
  | vacant | offer | confirm | preparing | running | stopping | closing => exact h

theorem crdkOwner_keepsPorts : KeepsPorts crdkOwner := by
  intro f c s h
  refine portsSound_ite h ?_
  split
  · exact h.enterOffer c
  · exact h.enterOffer c
  · exact h

theorem cmodOwner_keepsPorts : KeepsPorts cmodOwner := fun _ _ _ h =>
  portsSound_ite h (portsSound_ite h (portsSound_ite h ((h.moveCell _ _).serve _ _)))

theorem csenOwner_keepsPorts : KeepsPorts csenOwner := fun _ _ _ h =>
  portsSound_ite h (portsSound_ite h (portsSound_ite h ((h.onCell _ _).serve _ _)))

theorem qcelOwner_keepsPorts : KeepsPorts qcelOwner := fun _ _ _ h => h

theorem cunbOwner_keepsPorts : KeepsPorts cunbOwner := by
  intro f c s h
  refine portsSound_ite h ?_
  dsimp only
  split
  · dsimp only
    exact (h.onCell c _).unbind _ c _ _
  · dsimp only
    exact (h.onCell c _).unbind _ c _ _
  · exact h

theorem qeqpOwner_keepsPorts : KeepsPorts qeqpOwner := by
  intro f id s h
  unfold qeqpOwner
  split <;> exact h

theorem qeqpListOwner_keepsPorts : KeepsPorts qeqpListOwner := fun _ _ _ h => h

theorem eannOwner_keepsPorts (p : Port) : KeepsPorts (eannOwner p) := by
  intro f ability s h
  unfold eannOwner
  split
  · refine portsSound_ite h ?_
    dsimp only
    split
    · exact (h.setEntry _ _).disturb _ _ _
    · exact h.setEntry _ _
  · unfold State.learn
    split
    · exact portsSound_ite (h.setEntry _ _) h
    · exact h

theorem eablOwner_keepsPorts : KeepsPorts eablOwner := by
  intro f a s h
  refine portsSound_ite h (portsSound_ite h ?_)
  split
  · have marked := (h.onEquip f.source fun e => { e with ability := a.2 }).onCell a.1 fun x =>
      { x with negotiation := some (Negotiation.report ‹_› (decide ((s.cell a.1).handler = some f.source))) }
    exact .of_ite (marked.reported _) marked
  · exact (h.onEquip _ _).enterOffer _ _ _
  · exact h

theorem ecnfOwner_keepsPorts (p : Port) : KeepsPorts (ecnfOwner p) := by
  intro f a s h
  refine portsSound_ite h ?_
  dsimp only
  split
  · refine portsSound_ite (h.enterFault _ _) ?_
    have marked := h.onCell a.1 fun x =>
      { x with negotiation := some (Negotiation.accept ‹_› (decide ((s.cell a.1).handler = some f.source))) }
    exact .of_ite (marked.formed _ _ _) marked
  · exact h

theorem State.PortsSound.programLoaded {s : State} (h : s.PortsSound) (src : Option Port) (c : CellNo)
    (id program : Id) : (s.programLoaded src c id program).PortsSound :=
  .of_ite (((((h.onEquip id _).onCell c _).onCell c _).testPreparation src c).serve src c)
    ((h.onEquip id _).onCell c _)

theorem State.PortsSound.programRefused {s : State} (h : s.PortsSound) (src : Option Port) (c : CellNo) :
    (s.programRefused src c).PortsSound :=
  .of_ite ((h.onCell c _).loadFailed src c) (h.onCell c _)

theorem epldOwner_keepsPorts (p : Port) : KeepsPorts (epldOwner p) := by
  intro f a s h
  unfold epldOwner
  dsimp only
  split
  · exact h
  · exact h
  · exact .of_ite (h.programLoaded _ _ _ _) (h.programRefused _ _)

theorem eldfOwner_keepsPorts (p : Port) : KeepsPorts (eldfOwner p) := by
  intro f a s h
  unfold eldfOwner
  dsimp only
  split
  · exact h
  · exact portsSound_ite (h.programRefused _ _) h

theorem State.PortsSound.temperatureReached {s : State} (h : s.PortsSound) (src : Option Port) (c : CellNo) :
    (s.temperatureReached src c).PortsSound := by
  have reached := h.onCell c fun x => { x with thermal := { x.thermal with reached := true, soak := 0 } }
  unfold State.temperatureReached
  dsimp only
  split
  · exact .of_ite (((reached.onCell c _).testPreparation src c).serve src c) reached
  · exact reached

theorem etmpOwner_keepsPorts (p : Port) : KeepsPorts (etmpOwner p) := by
  intro f a s h
  unfold etmpOwner
  dsimp only
  split
  · exact h
  · exact portsSound_ite h (.of_ite h (h.temperatureReached _ _))

theorem erndOwner_keepsPorts (p : Port) : KeepsPorts (erndOwner p) := by
  intro f a s h
  unfold erndOwner
  split
  · exact h
  · exact h
  · exact portsSound_ite h (portsSound_ite h (portsSound_ite h (h.evaluateEnd _ _ _ _ _)))

theorem State.PortsSound.removeSite {s : State} (h : s.PortsSound) (src : Option Port) (c : CellNo) (id : Id)
    (r : Run) (site : Fin 8) (top : Nat) : (s.removeSite src c id r site top).PortsSound :=
  .of_ite (((h.onCell c _).notifyMembers c _).placeHold _ _ _ _ _) ((h.onCell c _).notifyMembers c _)

theorem State.PortsSound.checkSites {s : State} (h : s.PortsSound) (src : Option Port) (c : CellNo) (id : Id) :
    (s.checkSites src c id).PortsSound := by
  unfold State.checkSites
  split
  · split
    · split
      · exact h.removeSite _ _ _ _ _ _
      · exact h
    · exact h
  · exact h

theorem State.PortsSound.runningChecks {s : State} (h : s.PortsSound) (src : Option Port) (id : Id) :
    (s.runningChecks src id).PortsSound := by
  unfold State.runningChecks
  split
  · exact .of_ite (h.checkRatios _ _) h
  · exact h

theorem State.PortsSound.checkExcess {s : State} (h : s.PortsSound) (src : Option Port) (id : Id)
    (before after : Nat) : (s.checkExcess src id before after).PortsSound :=
  .of_ite (h.placeHold _ _ _ _ _) h

theorem State.PortsSound.applyResults {s : State} (h : s.PortsSound) (src : Option Port) (c : CellNo) (l : Lot)
    (r : Run) (es : List BinEntry) : (s.applyResults src c l r es).1.PortsSound :=
  (((((h.onLot l.id _).onCell c _).checkExcess _ _ _ _).runningChecks _ _).checkSites _ _ _).testClose src c

theorem ebinOwner_keepsPorts (p : Port) : KeepsPorts (ebinOwner p) := by
  intro f a s h
  unfold ebinOwner
  split
  · exact h
  · split
    · exact h
    · refine portsSound_ite h ?_
      split
      · exact h
      · refine portsSound_ite h ?_
        split
        · exact h
        · exact h.applyResults _ _ _ _ _

theorem qresOwner_keepsPorts : KeepsPorts qresOwner := by
  intro f a s h
  have judged (l : Lot) (r : Nat) : (s.judgeSample l r).1.PortsSound := by
    unfold State.judgeSample
    dsimp only
    split
    · exact ((h.onLot _ _).onLot _ _).nlot _ _
    · exact (h.onLot _ _).placeHold _ _ _ _ _
  unfold qresOwner
  dsimp only
  split
  · exact h
  · exact portsSound_ite h (portsSound_ite h (portsSound_ite h (judged _ _)))

theorem rlseOwner_keepsPorts : KeepsPorts rlseOwner := by
  intro f id s h
  have queued (rs : List Shipment) : ({ s with shipments := rs } : State).PortsSound := h.of_ports rfl
  unfold rlseOwner
  split
  · exact h
  · refine portsSound_ite h (portsSound_ite h (portsSound_ite h ?_))
    exact .of_ite (((queued _).onLot _ _).nlot _ _).attentionTest (((queued _).onLot _ _).nlot _ _)

theorem stakOwner_keepsPorts : KeepsPorts stakOwner := by
  intro f _ s h
  unfold stakOwner
  split
  · dsimp only [State.retire]
    split
    · exact (h.dropShipment _).freeLot _ _
    · exact h.dropShipment _
  · exact h

theorem sarmOwner_keepsPorts : KeepsPorts sarmOwner := by
  intro f _ s h
  have armed : ({ s with armed := true } : State).PortsSound := h.of_ports rfl
  exact armed.attentionTest

theorem clksOwner_keepsPorts : KeepsPorts clksOwner := by
  intro f a s h
  have loaded (clock : Clock) : ({ s with clock := clock } : State).PortsSound := h.of_ports rfl
  cases a with
  | none => exact h
  | some m => exact portsSound_ite h ((loaded _).evaluateGates _)

theorem wprdOwner_keepsPorts : KeepsPorts wprdOwner := fun _ _ _ h =>
  portsSound_ite h (portsSound_ite h (h.of_ports rfl))

theorem wbplOwner_keepsPorts : KeepsPorts wbplOwner := by
  intro f a s h
  refine portsSound_ite h ?_
  dsimp only
  split
  · exact h
  · exact h.of_ports rfl

theorem wparOwner_keepsPorts : KeepsPorts wparOwner := by
  intro f new s h
  have replaced (tables : Tables) : ({ s with tables := tables } : State).PortsSound := h.of_ports rfl
  have recomputed {p : Prop} [Decidable p] (tables : Tables) :=
    PortsSound.of_ite (c := p) (replaced tables) (replaced tables).recompute
  exact .of_ite (recomputed _) ((recomputed _).periodChanged _)

theorem wwinOwner_keepsPorts : KeepsPorts wwinOwner := by
  intro f a s h
  have replaced (tables : Tables) : ({ s with tables := tables } : State).PortsSound := h.of_ports rfl
  exact portsSound_ite h (portsSound_ite h ((replaced _).evaluateGates _))

theorem crdyOwner_keepsPorts : KeepsPorts crdyOwner := by
  intro f _ s h
  unfold crdyOwner
  split
  · exact h
  · exact h.of_ports rfl

theorem csavOwner_keepsPorts : KeepsPorts csavOwner := fun _ _ _ h => portsSound_ite (h.of_ports rfl) h

theorem frstOwner_keepsPorts : KeepsPorts frstOwner := fun _ _ _ h => h

theorem sensOwner_keepsPorts (p : Port) : KeepsPorts (sensOwner p) := fun _ _ _ h => h

theorem pstaOwner_keepsPorts (p : Port) : KeepsPorts (pstaOwner p) := fun _ _ _ h =>
  h.onPort p fun _ sound => sound.clearStatus

/-! ## The events of the links and of the part -/

namespace State.PortsSound

variable {s : State}

theorem powerOn (cut : WriteCut) : (s.powerOn cut).PortsSound := reset.of_ports rfl

theorem resumeWaiting (h : s.PortsSound) (f : Frame) : (s.resumeWaiting f).PortsSound := by
  unfold State.resumeWaiting
  split
  · exact h.checkFields lentConfigured_keepsPorts _ _ _ _
  · exact h.checkFields cdckConfigured_keepsPorts _ _ _ _
  · exact h

theorem endReattempt (h : s.PortsSound) (reply : StoreReply) (f : Frame) : (s.endReattempt reply f).PortsSound := by
  have ended : ({ s with storeJob := none } : State).PortsSound := h.of_ports rfl
  have installed (tables : Tables) (c : ConfigState) :
      ({ s with storeJob := none, tables := tables, configState := c } : State).PortsSound := h.of_ports rfl
  exact of_ite (((installed _ _).periodChanged _).resumeWaiting f) (ended.answer _ _ _)

theorem endWrite (h : s.PortsSound) (result : ReadBack) : (s.endWrite result).PortsSound := by
  have written (store : Store) : ({ s with storeJob := none, store := store } : State).PortsSound := h.of_ports rfl
  cases result <;> exact (written _).answer _ _ _

theorem frameSent (h : s.PortsSound) (p : Port) : (s.onPort p PortUnit.sent).PortsSound :=
  h.onPort p fun _ sound => sound.sent

end State.PortsSound

/-- A request's row examines the request in service with a reader, which follows the request's format (R9), and with an
owner, which keeps the limits of the port units. -/
theorem exec_request {i : Instr} {p : Port} {r : Req} {mine : List Byte → Bool}
    (row : requestOf i = some (p, r, mine)) :
    ∃ (α : Type) (read : List Byte → Checked α) (owner : Owner α),
      (∀ s, exec i s = .next (s.request p r mine read owner)) ∧ ReadsFormat r mine read ∧ KeepsPorts owner := by
  cases i with
  | lent _ =>
    cases row
    exact ⟨_, _, _, fun _ => rfl, .of_agrees readLent_agrees, afterReattempt_keepsPorts lentConfigured_keepsPorts⟩
  | lrem _ => cases row; exact ⟨_, _, _, fun _ => rfl, .of_agrees readLotId_agrees, lremOwner_keepsPorts⟩
  | lpri _ => cases row; exact ⟨_, _, _, fun _ => rfl, .of_agrees readLpri_agrees, lpriOwner_keepsPorts⟩
  | lsht _ => cases row; exact ⟨_, _, _, fun _ => rfl, .of_agrees readLotId_agrees, lshtOwner_keepsPorts⟩
  | qlotSummary _ =>
    cases row
    exact ⟨_, _, _, fun _ => rfl, .of_view (by decide) fun _ => readQlotLot_agrees, qlotSummaryOwner_keepsPorts⟩
  | qlotCounts _ =>
    cases row
    exact ⟨_, _, _, fun _ => rfl, .of_view (by decide) fun _ => readQlotLot_agrees, qlotCountsOwner_keepsPorts⟩
  | qlotHolds _ => cases row; exact ⟨_, _, _, fun _ => rfl, readsFormat_qlotHolds, qlotHoldsOwner_keepsPorts⟩
  | qlotList _ =>
    cases row
    exact ⟨_, _, _, fun _ => rfl, .of_view (by decide) fun _ => readQlotList_agrees, qlotListOwner_keepsPorts⟩
  | hold _ => cases row; exact ⟨_, _, _, fun _ => rfl, .of_agrees readHold_agrees, holdOwner_keepsPorts _⟩
  | hclr _ => cases row; exact ⟨_, _, _, fun _ => rfl, .of_agrees readHclr_agrees, hclrOwner_keepsPorts _⟩
  | hovc _ => cases row; exact ⟨_, _, _, fun _ => rfl, .of_agrees readLotId_agrees, hovcOwner_keepsPorts⟩
  | cdck _ =>
    cases row
    exact ⟨_, _, _, fun _ => rfl, .of_agrees readCdck_agrees, afterReattempt_keepsPorts cdckConfigured_keepsPorts⟩
  | cund _ => cases row; exact ⟨_, _, _, fun _ => rfl, .of_agrees readCell_agrees, cundOwner_keepsPorts⟩
  | crdk _ => cases row; exact ⟨_, _, _, fun _ => rfl, .of_agrees readCell_agrees, crdkOwner_keepsPorts⟩
  | cmod _ => cases row; exact ⟨_, _, _, fun _ => rfl, .of_agrees readCmod_agrees, cmodOwner_keepsPorts⟩
  | csen _ => cases row; exact ⟨_, _, _, fun _ => rfl, .of_agrees readCsen_agrees, csenOwner_keepsPorts⟩
  | qcel _ => cases row; exact ⟨_, _, _, fun _ => rfl, .of_agrees readCell_agrees, qcelOwner_keepsPorts⟩
  | cunb _ => cases row; exact ⟨_, _, _, fun _ => rfl, .of_agrees readCell_agrees, cunbOwner_keepsPorts⟩
  | qeqp _ => cases row; exact ⟨_, _, _, fun _ => rfl, .of_agrees readQeqp_agrees, qeqpOwner_keepsPorts⟩
  | qeqpList _ => cases row; exact ⟨_, _, _, fun _ => rfl, .of_agrees readQeqp_agrees, qeqpListOwner_keepsPorts⟩
  | stak _ => cases row; exact ⟨_, _, _, fun _ => rfl, .of_agrees readEmpty_agrees, stakOwner_keepsPorts⟩
  | sarm _ => cases row; exact ⟨_, _, _, fun _ => rfl, .of_agrees readEmpty_agrees, sarmOwner_keepsPorts⟩
  | qres _ => cases row; exact ⟨_, _, _, fun _ => rfl, .of_agrees readQres_agrees, qresOwner_keepsPorts⟩
  | rlse _ => cases row; exact ⟨_, _, _, fun _ => rfl, .of_agrees readLotId_agrees, rlseOwner_keepsPorts⟩
  | clks _ => cases row; exact ⟨_, _, _, fun _ => rfl, .of_agrees readClks_agrees, clksOwner_keepsPorts⟩
  | wprd _ => cases row; exact ⟨_, _, _, fun _ => rfl, .of_agrees readWprd_agrees, wprdOwner_keepsPorts⟩
  | wbpl _ => cases row; exact ⟨_, _, _, fun _ => rfl, .of_agrees readWbpl_agrees, wbplOwner_keepsPorts⟩
  | wpar _ => cases row; exact ⟨_, _, _, fun _ => rfl, .of_agrees readWpar_agrees, wparOwner_keepsPorts⟩
  | wwin _ => cases row; exact ⟨_, _, _, fun _ => rfl, .of_agrees readWwin_agrees, wwinOwner_keepsPorts⟩
  | crdy _ => cases row; exact ⟨_, _, _, fun _ => rfl, .of_agrees readEmpty_agrees, crdyOwner_keepsPorts⟩
  | csav _ => cases row; exact ⟨_, _, _, fun _ => rfl, .of_agrees readEmpty_agrees, csavOwner_keepsPorts⟩
  | frst _ => cases row; exact ⟨_, _, _, fun _ => rfl, .of_agrees readEmpty_agrees, frstOwner_keepsPorts⟩
  | eann _ => cases row; exact ⟨_, _, _, fun _ => rfl, .of_agrees readEann_agrees, eannOwner_keepsPorts _⟩
  | eabl _ => cases row; exact ⟨_, _, _, fun _ => rfl, .of_agrees readEabl_agrees, eablOwner_keepsPorts⟩
  | ecnf _ => cases row; exact ⟨_, _, _, fun _ => rfl, .of_agrees readEcnf_agrees, ecnfOwner_keepsPorts _⟩
  | epld _ => cases row; exact ⟨_, _, _, fun _ => rfl, .of_agrees readProgram_agrees, epldOwner_keepsPorts _⟩
  | eldf _ => cases row; exact ⟨_, _, _, fun _ => rfl, .of_agrees readProgram_agrees, eldfOwner_keepsPorts _⟩
  | etmp _ => cases row; exact ⟨_, _, _, fun _ => rfl, .of_agrees readEtmp_agrees, etmpOwner_keepsPorts _⟩
  | ernd _ => cases row; exact ⟨_, _, _, fun _ => rfl, .of_agrees readErnd_agrees, erndOwner_keepsPorts _⟩
  | ebin _ => cases row; exact ⟨_, _, _, fun _ => rfl, .of_agrees readEbin_agrees, ebinOwner_keepsPorts _⟩
  | sens _ => cases row; exact ⟨_, _, _, fun _ => rfl, .of_agrees readEmpty_agrees, sensOwner_keepsPorts _⟩
  | psta _ => cases row; exact ⟨_, _, _, fun _ => rfl, .of_agrees readEmpty_agrees, pstaOwner_keepsPorts _⟩
  | _ => cases row

/-- Every command keeps every port unit within its limits. -/
theorem exec_keepsPorts {i : Instr} {s t : State} (h : s.PortsSound) (next : exec i s = .next t) : t.PortsSound := by
  cases row : requestOf i with
  | some request =>
    obtain ⟨p, r, mine⟩ := request
    obtain ⟨α, read, owner, runs, -, keeps⟩ := exec_request row
    rw [runs] at next
    injection next with e
    exact e ▸ h.request keeps p r mine read
  | none =>
    cases i with
    | powerOnReset cut => injection next with e; exact e ▸ .powerOn cut
    | floorReset => injection next with e; exact e ▸ h.takeListed _
    | startUpLoad reply => injection next with e; exact e ▸ .of_ite (h.settle.endLoad reply) h.settle
    | storeLoadReattempt reply =>
      injection next with e
      subst e
      split
      · exact h.settle.endReattempt reply _
      · exact h.settle
    | storeWrite result => injection next with e; exact e ▸ .of_ite (h.settle.endWrite result) h.settle
    | frameComplete p last =>
      injection next with e
      subst e
      refine h.settle.onPort p fun u sound => ?_
      split
      · exact sound.complete _ _
      · exact sound
    | lengthBelow6 p length =>
      injection next with e
      subst e
      refine h.settle.onPort p fun u sound => ?_
      split
      · exact sound.hunting.countCrcError
      · exact sound
    | gapAbort p => injection next with e; exact e ▸ h.settle.onPort p fun _ sound => sound.gap
    | frameSent p =>
      injection next with e
      exact e ▸ .of_ite ((h.settle.frameSent p).withDue _) (h.settle.frameSent p)
    | secondsTick => injection next with e; exact e ▸ h.settle.second
    | minuteTick => injection next with e; exact e ▸ h.takeListed _
    | entryStale i => injection next with e; exact e ▸ h.takeListed _
    | entryRemoval i => injection next with e; exact e ▸ .of_ite h (h.takeListed _)
    | soakEnd c => injection next with e; exact e ▸ h.takeListed _
    | negotiationDeadlineExpiry c => injection next with e; exact e ▸ h.takeListed _
    | loadDeadlineExpiry c => injection next with e; exact e ▸ h.takeListed _
    | settleDeadlineExpiry c => injection next with e; exact e ▸ h.takeListed _
    | closeDeadlineExpiry c => injection next with e; exact e ▸ h.takeListed _
    | unknownCode p =>
      injection next with e
      subst e
      split
      · exact .of_ite (.of_ite (h.settle.answerStartUp p _) (h.settle.answer p _ _)) h.settle
      · exact h.settle
    | receivedByte p b => injection next with e; exact e ▸ h.settle.onPort p fun _ sound => sound.receive b
    | _ => cases row

/-- Settles O52: only notices, answers and link events reach a port unit, and each keeps the limits of chapter 1. -/
theorem portLimitsKept : Obligations.PortLimitsKept := by
  intro s t h next
  unfold step at next
  split at next
  · injection next with e
    exact e ▸ h
  · rename_i i rest _
    have front : ({ s with pending := rest } : State).PortsSound := h.of_ports rfl
    exact exec_keepsPorts front next

end Sys2Proof.Machine
end

section
/-! What an answer writes, and what becomes of a request in service when its command comes (R7, R8, R10, R11). -/

namespace Sys2Proof.Machine

/-! ## Answers (R10, R11, R16) -/

/-- The sense record that an outcome leaves (R11). -/
def Reply.sense (req : Option Req) : Reply → Sense
  | .check code a => ⟨code, a, req⟩
  | .good _ | .busy | .wait => Sense.clear

/-- The port unit once the request in service has this response: a busy line goes on, an idle one begins it. -/
def PortUnit.respond (u : PortUnit) (v : Service) (x : Sense) (payload : List Byte) : PortUnit :=
  { u with
    sense := x
    service := some { v with progress := .answered payload }
    line := some (u.line.getD ⟨.response, responseBytes v.frame payload⟩) }

/-- A transmitter with a response ready is busy, with it unless with another frame. -/
theorem PortUnit.startNext_of_response {u : PortUnit} {v : Service} {payload : List Byte}
    (ready : u.service = some { v with progress := .answered payload }) :
    u.startNext = { u with line := some (u.line.getD ⟨.response, responseBytes v.frame payload⟩) } := by
  cases line : u.line with
  | none => simpa using PortUnit.startNext_response line ready
  | some l =>
    rw [PortUnit.startNext_busy (by simp [line])]
    cases u
    cases line
    rfl

theorem PortUnit.answer_eq {u : PortUnit} {v : Service} (r : Option Req) {reply : Reply} (service : u.service = some v)
    (final : reply ≠ .wait) : u.answer r reply = u.respond v (reply.sense r) reply.payload := by
  cases reply with
  | wait => exact absurd rfl final
  | good _ | busy | check _ _ =>
    rw [PortUnit.answer, PortUnit.startNext_of_response (by rw [service]; rfl)]
    simp [PortUnit.respond, service, Reply.sense]

theorem PortUnit.answerStartUp_eq {u : PortUnit} {v : Service} (r : Option Req) (service : u.service = some v) :
    u.answerStartUp r = u.respond v ⟨.startUp, 0, r⟩ [1] := by
  rw [PortUnit.answerStartUp, PortUnit.startNext_of_response (by rw [service]; rfl)]
  simp [PortUnit.respond, service, Reply.payload]

section answered
variable {s : State} {p : Port} {v : Service} (service : (s.port p).service = some v)
include service

/-- The state once the request in service on `p` has this response. -/
theorem State.answer_eq (r : Option Req) {reply : Reply} (final : reply ≠ .wait) :
    s.answer p r reply = s.setPort p ((s.port p).respond v (reply.sense r) reply.payload) := by
  rw [State.answer, State.onPort, PortUnit.answer_eq r service final]

theorem State.answerStartUp_eq (r : Option Req) :
    s.answerStartUp p r = s.setPort p ((s.port p).respond v ⟨.startUp, 0, r⟩ [1]) := by
  rw [State.answerStartUp, State.onPort, PortUnit.answerStartUp_eq r service]

theorem answered_respond (x : Sense) (payload : List Byte) :
    Answered s (s.setPort p ((s.port p).respond v x payload)) p payload := by
  simp [Answered, PortUnit.respond, service]

omit service in
/-- A response reaches the service slot, the sense record and the line of its port, and nothing else. -/
theorem onlyAnswered_respond (x : Sense) (payload : List Byte) :
    OnlyAnswered s (s.setPort p ((s.port p).respond v x payload)) p := by
  refine ⟨rfl, fun q other => ?_, ?_⟩
  · simp [other]
  · simp [PortUnit.respond]

theorem onlyAnswered_answer (r : Option Req) {reply : Reply} (final : reply ≠ .wait) :
    OnlyAnswered s (s.answer p r reply) p := by
  rw [State.answer_eq service r final]
  exact onlyAnswered_respond _ _

theorem answeredGood_answer (r : Option Req) (data : List Byte) :
    AnsweredGood s (s.answer p r (.good data)) p data := by
  rw [State.answer_eq service r (by simp)]
  exact ⟨answered_respond service _ _, by simp [PortUnit.respond, Reply.sense, Sense.clear]⟩

theorem answeredBusy_answer (r : Option Req) : AnsweredBusy s (s.answer p r .busy) p := by
  rw [State.answer_eq service r (by simp)]
  exact ⟨answered_respond service _ _, by simp [PortUnit.respond, Reply.sense, Sense.clear]⟩

theorem answeredCheck_answer (r : Option Req) (code : SenseCode) (a : BitVec 32) :
    AnsweredCheck s (s.answer p r (.check code a)) p r code a := by
  rw [State.answer_eq service r (by simp)]
  exact ⟨answered_respond service _ _, by simp [PortUnit.respond, Reply.sense]⟩

/-- A refusal changes nothing but the answer. -/
theorem refused_answer (r : Option Req) (code : SenseCode) (a : BitVec 32) :
    OnlyAnswered s (s.answer p r (.check code a)) p ∧ AnsweredCheck s (s.answer p r (.check code a)) p r code a :=
  ⟨onlyAnswered_answer service r (by simp), answeredCheck_answer service r code a⟩

/-- A start-up refusal changes nothing but the answer. -/
theorem refused_answerStartUp (r : Option Req) :
    OnlyAnswered s (s.answerStartUp p r) p ∧ Answered s (s.answerStartUp p r) p [0x01]
      ∧ ((s.answerStartUp p r).port p).sense = ⟨.startUp, 0, r⟩ := by
  rw [State.answerStartUp_eq service]
  exact ⟨onlyAnswered_respond _ _, answered_respond service _ _, by simp [PortUnit.respond]⟩

end answered

/-- Settles O12, by what the port unit is once the request in service has a response. -/
theorem answerWritesResponseAndSense : Obligations.AnswerWritesResponseAndSense := by
  intro s p r v service
  refine ⟨fun data => ⟨onlyAnswered_answer service r (by simp), answeredGood_answer service r data⟩,
    ⟨onlyAnswered_answer service r (by simp), answeredBusy_answer service r⟩,
    fun code a => refused_answer service r code a, fun reply final => ?_⟩
  rw [State.answer_eq service r final, State.setPort_port_same]
  refine ⟨⟨rfl, rfl, rfl, rfl, rfl, rfl, rfl⟩, rfl, rfl, rfl, rfl, fun idle => ?_, fun l busy => ?_⟩
  · simp [PortUnit.respond, idle, responseBytes, responseType]
  · simp [PortUnit.respond, busy]

/-! ## A request in service, when its command comes (R7, R8) -/

/-- A request that is not examined yet is examined by the command of its row. -/
theorem State.request_examines {α : Type} {s : State} {p : Port} {r : Req} {mine : List Byte → Bool}
    {read : List Byte → Checked α} {owner : Owner α} {v : Service} (quiet : s.Quiet)
    (service : (s.port p).service = some v) (fresh : v.progress = .taken ∨ v.progress = .takenInLoad)
    (code : Req.ofCode v.frame.code = some r) (fits : mine v.frame.payload = true) :
    s.request p r mine read owner = s.examine p r read owner v := by
  have taken : s.taken p = some v := by simp [State.taken, service, fresh]
  simp [State.request, quiet, taken, code, fits]

/-- A request that came in during a start-up load is answered BUSY START-UP (R8 step 1, R184). -/
theorem State.examine_startUp {α : Type} {s : State} {v : Service} (load : s.startsUp v = true) (p : Port) (r : Req)
    (read : List Byte → Checked α) (owner : Owner α) : s.examine p r read owner v = s.answerStartUp p (some r) := by
  simp [State.examine, load]

/-- An unknown code's command examines the request in service. -/
theorem exec_unknownCode {s : State} {p : Port} {v : Service} (quiet : s.Quiet)
    (service : (s.port p).service = some v) (fresh : v.progress = .taken ∨ v.progress = .takenInLoad)
    (code : Req.ofCode v.frame.code = none) :
    exec (.unknownCode p) s = .next
      (if s.startsUp v then s.answerStartUp p none else s.answer p none (.check .field 2)) := by
  have taken : s.taken p = some v := by simp [State.taken, service, fresh]
  show execUnknownCode p s = _
  simp [execUnknownCode, quiet, taken, code]

/-- Settles O8: the start-up check comes first for every row, and its answer changes nothing else. -/
theorem startUpAnswersBusy : Obligations.StartUpAnswersBusy := by
  have answers {i : Instr} {s : State} {p : Port} {r : Req} {mine : List Byte → Bool} {v : Service} (quiet : s.Quiet)
      (row : requestOf i = some (p, r, mine)) (service : (s.port p).service = some v)
      (fresh : v.progress = .taken ∨ v.progress = .takenInLoad) (load : s.startsUp v = true)
      (code : Req.ofCode v.frame.code = some r) (fits : mine v.frame.payload = true) :
      exec i s = .next (s.answerStartUp p (some r)) := by
    obtain ⟨α, read, owner, runs, -⟩ := exec_request row
    rw [runs, State.request_examines quiet service fresh code fits, State.examine_startUp load]
  refine ⟨?_, ?_, ?_⟩
  · rintro i s p r src payload quiet loading ⟨mine, row, fits, v, service, taken, code, -, rfl⟩
    exact ⟨_, answers quiet row service (.inl taken) (by simp [State.startsUp, loading]) code fits,
      refused_answerStartUp service _⟩
  · intro i s p r mine v quiet row service taken code fits
    exact ⟨_, answers quiet row service (.inr taken) (by simp [State.startsUp, taken]) code fits,
      refused_answerStartUp service _⟩
  · intro s p v quiet service load code
    have fresh : v.progress = .taken ∨ v.progress = .takenInLoad := load.imp_left And.right
    have startsUp : s.startsUp v = true := by
      rcases load with ⟨loading, -⟩ | taken
      · simp [State.startsUp, loading]
      · simp [State.startsUp, taken]
    exact ⟨_, by rw [exec_unknownCode quiet service fresh code, if_pos startsUp], refused_answerStartUp service _⟩

end Sys2Proof.Machine
end

section
/-! The checks of R8 and R23 before the payload's, and the requests that the port units own (R11, R12, R17, R194). -/

namespace Sys2Proof.Machine

/-! ## The checks in their order (R8 steps 2 to 4, R18, R23) -/

theorem supervisor_iff {p : Port} : supervisor p = true ↔ p.val ≤ 1 := by
  simp [supervisor]

theorem not_supervisor_eq (p : Port) : (!supervisor p) = decide (2 ≤ p.val) := by
  rw [supervisor, ← decide_not, decide_eq_decide]
  omega

theorem not_supervisor_iff {p : Port} : supervisor p = false ↔ 2 ≤ p.val := by
  simpa using Bool.eq_iff_iff.mp (not_supervisor_eq p)

section checks
variable {α : Type} {s : State} {p : Port} {r : Req} {read : List Byte → Checked α} {owner : Owner α} {v : Service}
  (checked : s.startsUp v = false)
include checked

theorem State.examine_notPermitted (port : r.permitted p = false) :
    s.examine p r read owner v = s.refuse p r .notPermitted (arg p.val) := by
  simp [State.examine, checked, port]

theorem State.examine_supervisorSource (port : r.permitted p = true) (sup : supervisor p = true)
    (source : v.frame.source ≠ 0) : s.examine p r read owner v = s.refuse p r .field 4 := by
  have nonzero : ¬v.frame.source = 0#32 := source
  simp [State.examine, checked, port, sup, nonzero]

theorem State.examine_equipment (port : r.permitted p = true) (equip : supervisor p = false) :
    s.examine p r read owner v = s.checkSender p r read owner v.frame := by
  simp [State.examine, checked, port, equip]

end checks

section senders
variable {α : Type} {s : State} {p : Port} {r : Req} {read : List Byte → Checked α} {owner : Owner α} {f : Frame}

theorem State.checkSender_noSource (source : f.source = 0) :
    s.checkSender p r read owner f = s.refuse p r .field 4 := by
  simp [State.checkSender, source]

theorem State.checkSender_unknown (source : f.source ≠ 0) (unknown : s.find f.source = none) (other : r ≠ .eann) :
    s.checkSender p r read owner f = s.refuse p r .unknownEquipment f.source := by
  unfold State.checkSender
  rw [if_neg source, unknown]
  simp [other]

theorem State.checkSender_fifth {i : Position} {e : Entry} (source : f.source ≠ 0)
    (known : s.find f.source = some (i, e)) (elsewhere : e.port ≠ p) (full : 4 ≤ s.portCount p) :
    s.checkSender p r read owner f = s.refuse p r .tableFull 0 := by
  unfold State.checkSender
  rw [if_neg source, known]
  simp [elsewhere, Config.entriesPerPort, full]

end senders

/-- Settles O9: R18's table, and each check of R8 before the payload's with the refusal it gives. -/
theorem codePortAndSenderChecked : Obligations.CodePortAndSenderChecked := by
  refine ⟨fun p => ⟨?_, ?_, ?_, ?_, ?_⟩, ?_, ?_⟩
  · intro r member
    fin_cases member <;> rfl
  · simp [Req.permitted, supervisor]
  · intro r member
    fin_cases member <;> rfl
  · simp [Req.permitted, not_supervisor_eq]
  · simp [Req.permitted]
  · intro s p v quiet loaded service taken code
    have checked : s.startsUp v = false := by simp [State.startsUp, loaded, taken]
    exact ⟨_, by rw [exec_unknownCode quiet service (.inl taken) code, checked]; rfl, refused_answer service _ _ _⟩
  · rintro i s p r src payload quiet loaded ⟨mine, row, fits, v, service, taken, code, rfl, rfl⟩
    obtain ⟨α, read, owner, runs, -⟩ := exec_request row
    have checked : s.startsUp v = false := by simp [State.startsUp, loaded, taken]
    refine ⟨s.examine p r read owner v, ?_, ?_, ?_, ?_, ?_, ?_⟩
    · rw [runs, State.request_examines quiet service (.inl taken) code fits]
    · intro port
      rw [State.examine_notPermitted checked port]
      exact refused_answer service _ _ _
    · intro port sup source
      rw [State.examine_supervisorSource checked port (supervisor_iff.mpr sup) source]
      exact refused_answer service _ _ _
    · intro port equip source
      rw [State.examine_equipment checked port (not_supervisor_iff.mpr equip), State.checkSender_noSource source]
      exact refused_answer service _ _ _
    · intro port equip source unknown other
      rw [State.examine_equipment checked port (not_supervisor_iff.mpr equip),
        State.checkSender_unknown source unknown other]
      exact refused_answer service _ _ _
    · intro j e port equip source known elsewhere full
      rw [State.examine_equipment checked port (not_supervisor_iff.mpr equip),
        State.checkSender_fifth source known elsewhere full]
      exact refused_answer service _ _ _

/-! ## SENS and PSTA (R12, R17) -/

/-- The service slot of a port on which a request is in service. -/
theorem State.InService.service {s : State} {p : Port} {r : Req} {src : Id} {payload : List Byte}
    (h : s.InService p r src payload) : ∃ v, (s.port p).service = some v := by
  obtain ⟨v, service, -⟩ := h
  exact ⟨v, service⟩

theorem State.Asks.service {s : State} {p : Port} {r : Req} {payload : List Byte} (h : s.Asks p r payload) :
    ∃ v, (s.port p).service = some v := by
  obtain ⟨-, -, -, -, inService⟩ := h
  exact inService.service

/-- What PSTA's owner answers and clears for the request in service. -/
theorem pstaOwner_eq {s : State} {p : Port} {v : Service} (f : Frame) (service : (s.port p).service = some v) :
    pstaOwner p f () s = (s.setPort p (s.port p).clearStatus, .good ((s.port p).status v.depth)) := by
  simp [pstaOwner, service, State.onPort]

/-- Settles O11: what SENS and PSTA's owners read and clear, through the examination of a request that passes. -/
theorem senseAndStatusRead : Obligations.SenseAndStatusRead := by
  refine ⟨?_, ?_, ?_⟩
  · intro s p asks
    obtain ⟨f, h⟩ := State.request_ok (mine := anyPayload) (read := readEmpty) (owner := sensOwner p) asks rfl rfl
    exact congrArg Host.Outcome.next h
  · intro s p id i e sends
    obtain ⟨f, -, h⟩ := State.request_sent (mine := anyPayload) (read := readEmpty) (owner := sensOwner p) sends (by simp)
      rfl rfl
    exact congrArg Host.Outcome.next h
  · intro s p v service
    refine ⟨fun asks => ?_, fun id i e sends => ?_⟩
    · obtain ⟨f, h⟩ := State.request_ok (mine := anyPayload) (read := readEmpty) (owner := pstaOwner p) asks rfl rfl
      rw [pstaOwner_eq f service] at h
      exact congrArg Host.Outcome.next h
    · obtain ⟨f, -, h⟩ := State.request_sent (mine := anyPayload) (read := readEmpty) (owner := pstaOwner p) sends (by simp)
        rfl rfl
      have refreshed : ((s.refresh i e p).port p).service = some v := service
      rw [pstaOwner_eq f refreshed] at h
      exact congrArg Host.Outcome.next h

/-! ## FRST (R19, R194) -/

/-- The last character of FRST's GOOD response frees the slot and takes nothing further (R19). -/
theorem PortUnit.sent_of_floorReset {u : PortUnit} {bytes : List Byte} (line : u.line = some ⟨.response, bytes⟩)
    (resets : u.sendsFloorReset = true) : u.sent = { u with service := none, line := none } := by
  simp [PortUnit.sent, line, resets]

/-- The flow slot as a FLOOR RESET leaves it: a partner that was told to hold off is released (R19). -/
def PortUnit.release (u : PortUnit) : Option Flow :=
  if u.holdOff then (if u.flow = some .hoff then none else some .rsum) else none

/-- The line as a FLOOR RESET leaves it: its frame is only completed, and an idle one begins the release (R19). -/
def PortUnit.lineAtReset (u : PortUnit) : Option Line :=
  match u.line with
  | some l => some ⟨.leftOver, l.bytes⟩
  | none => u.release.map fun f => ⟨.flow, f.bytes⟩

/-- A port unit after a FLOOR RESET: as after a power-on reset but for its release, its line, its latches and its
counters (R19). -/
theorem PortUnit.floorReset_eq (u : PortUnit) : u.floorReset =
    { PortUnit.reset with
      flow := if u.line = none then none else u.release
      line := u.lineAtReset
      overrunLatch := u.overrunLatch, noticeLost := u.noticeLost
      crcErrors := u.crcErrors, gapAborts := u.gapAborts, overruns := u.overruns } := by
  unfold PortUnit.floorReset
  cases line : u.line with
  | some l =>
    rw [PortUnit.startNext_busy (by simp)]
    simp [PortUnit.lineAtReset, line, PortUnit.reset, PortUnit.release]
  | none =>
    rw [PortUnit.startNext_of_no_response rfl (by simp)]
    dsimp only
    rw [← PortUnit.release]
    cases release : u.release <;> simp [PortUnit.lineAtReset, line, PortUnit.reset, release]

/-- Settles O4: FRST's owner only answers, the last character of its response lists the reset, and the reset does to
each port unit what `PortUnit.floorReset_eq` says. -/
theorem frstResetsFloorAfterItsResponse : Obligations.FrstResetsFloorAfterItsResponse := by
  refine ⟨?_, ?_, ?_⟩
  · intro s asks
    obtain ⟨v, service⟩ := asks.service
    obtain ⟨f, h⟩ := State.request_ok (mine := anyPayload) (read := readEmpty) (owner := frstOwner) asks rfl rfl
    exact ⟨_, congrArg Host.Outcome.next h, onlyAnswered_answer service _ (by simp [frstOwner]),
      answeredGood_answer service _ _⟩
  · intro s bytes rest f d quiet line service code
    have resets : (s.port 0).sendsFloorReset = true := by
      simp [PortUnit.sendsFloorReset, line, service, code]
    refine ⟨{ s.setPort 0 (s.port 0).sent with due := [.floorReset] }, ?_, rfl, ?_, rfl, fun q other => ?_⟩
    · show execFrameSent 0 s = _
      simp [execFrameSent, quiet, resets, State.onPort]
    · exact (s.setPort_port_same 0 _).trans (PortUnit.sent_of_floorReset line resets)
    · exact s.setPort_port_ne _ other
  · intro s listed
    let s' : State := { s with due := s.due.erase .floorReset }
    have runs : exec .floorReset s = .next s'.floorReset := by
      show execFloorReset s = _
      simp [execFloorReset, State.takeListed, listed, State.takeDue, s']
    have unit (p : Port) : s'.floorReset.port p = (s.port p).floorReset := State.floorReset_port s' p
    obtain ⟨ports, cleared⟩ : ∃ ports, s'.floorReset = { s'.clearRecords with ports := ports } := ⟨_, rfl⟩
    rw [cleared] at runs unit
    refine ⟨_, runs, ?_, ?_, rfl, rfl, rfl, rfl, rfl, rfl, rfl, rfl, rfl, rfl, rfl, fun p => ?_⟩
    · simp [State.clearRecords, State.entry]
    · simp [State.clearRecords, State.cell]
    · rw [unit, PortUnit.floorReset_eq]
      refine ⟨rfl, rfl, rfl, rfl, rfl, rfl, rfl, rfl, rfl, rfl, rfl, rfl, ?_, ?_, ?_, ?_⟩
      · intro l line
        simp [PortUnit.lineAtReset, line]
      · intro held hoff
        simp [PortUnit.release, held, hoff]
      · intro held other busy
        simp [PortUnit.release, held, other, busy]
      · intro held other idle
        refine ⟨by simp [idle], ?_⟩
        simp [PortUnit.lineAtReset, idle, PortUnit.release, held, other, Flow.bytes, noticeType]

end Sys2Proof.Machine
end

section
/-! The outbox, the transmitter and the receiver of a port unit, event by event (R2 to R7, R13 to R16). -/

namespace Sys2Proof.Machine

/-! ## Notices (R13 to R15, R31, R36, R71) -/

section place
variable (sup : Bool) (n : Notice) (u : PortUnit)

/-- A notice's handling reaches the unsent notices and the latch only. -/
theorem PortUnit.place_keeps : (u.place sup n).line = u.line ∧ (u.place sup n).service = u.service
    ∧ (u.place sup n).flow = u.flow := by
  unfold PortUnit.place
  split
  · exact ⟨rfl, rfl, rfl⟩
  · split <;> exact ⟨rfl, rfl, rfl⟩

@[simp] theorem PortUnit.place_line : (u.place sup n).line = u.line := (u.place_keeps sup n).1

@[simp] theorem PortUnit.place_service : (u.place sup n).service = u.service := (u.place_keeps sup n).2.1

@[simp] theorem PortUnit.place_flow : (u.place sup n).flow = u.flow := (u.place_keeps sup n).2.2

variable {n u}

theorem PortUnit.place_replaces (waits : ∃ m ∈ u.unsent, m.key = n.key) :
    u.place sup n = { u with unsent := u.unsent.map fun m => if m.key = n.key then n else m } := by
  have : (u.unsent.any fun m => decide (m.key = n.key)) = true := by simpa using waits
  rw [PortUnit.place, if_pos this]

theorem PortUnit.place_joins (fresh : ∀ m ∈ u.unsent, m.key ≠ n.key) (room : u.hasRoom sup = true) :
    u.place sup n = { u with unsent := u.unsent ++ [n] } := by
  have : ¬(u.unsent.any fun m => decide (m.key = n.key)) = true := by simpa using fresh
  rw [PortUnit.place, if_neg this, if_pos room]

theorem PortUnit.place_loses (fresh : ∀ m ∈ u.unsent, m.key ≠ n.key) (room : ¬u.hasRoom sup = true) :
    u.place sup n = { u with noticeLost := true } := by
  have : ¬(u.unsent.any fun m => decide (m.key = n.key)) = true := by simpa using fresh
  rw [PortUnit.place, if_neg this, if_neg room]

end place

/-- Room for one more notice, as the port's rule states it (R14, R15). -/
theorem PortUnit.hasRoom_iff (u : PortUnit) (p : Port) :
    u.hasRoom (supervisor p) = true ↔ if p.val ≤ 1 then u.outbox < 16 else u.unsent = [] := by
  cases sup : supervisor p with
  | true => rw [if_pos (supervisor_iff.mp sup), PortUnit.hasRoom_supervisor]
  | false =>
    have := not_supervisor_iff.mp sup
    rw [if_neg (by omega), PortUnit.hasRoom_equipment]

/-- A notice is routed to the port unit of its port. -/
theorem State.notify_port (s : State) (p : Port) (n : Notice) :
    (s.notify p n).port p = ((s.port p).place (supervisor p) n).startNext := by
  simp [State.notify, State.onPort]

/-- NCEL carries the cell as it stands (R36, R195). -/
theorem ncel_payload (c : CellNo) (state : CellState) (mode : Mode) (reason : Option FaultReason) (bound : Option Id) :
    (Notice.ncel c state mode reason bound).payload = be 1 c.val ++ [state.byte, mode.byte]
      ++ (match reason with
        | some reason => [0x01, reason.byte]
        | none => [0x00, 0x00])
      ++ match bound with
        | some id => 0x01 :: be32 id
        | none => [0x00, 0x00, 0x00, 0x00, 0x00] := by
  cases reason <;> cases bound <;> rfl

/-- NLOT carries the lot as it stands, the cause and the hold (R71, R195). -/
theorem nlot_payload (id : Id) (state : LotState) (count : Nat) (overflow : Bool) (cause : Cause)
    (hold : Option (HoldKind × Nat)) :
    (Notice.nlot id (some state) count overflow cause hold).payload = be32 id ++ [state.byte] ++ be 1 count
      ++ [if overflow then 0x01 else 0x00, cause.byte]
      ++ match hold with
        | some h => 0x01 :: h.1.byte :: be 2 h.2
        | none => [0x00, 0x00, 0x00, 0x00] := by
  cases hold <;> simp [Notice.payload, lotStateByte, flag, optional]

/-- Settles O13: a port unit that is what the outbox's rules make of it is `place`'s, and its transmitter then looks for
a next frame. -/
theorem noticeCoalescedPlacedOrLost : Obligations.NoticeCoalescedPlacedOrLost := by
  intro s p n u v room placed
  have routed : v = (u.place (supervisor p) n).startNext := s.notify_port p n
  have handled (w : PortUnit) (h : placed w) : w = u.place (supervisor p) n := by
    obtain ⟨replaces, joins, loses⟩ := h
    by_cases waits : ∃ m ∈ u.unsent, m.key = n.key
    · rw [replaces waits, PortUnit.place_replaces _ waits]
    · have fresh : ∀ m ∈ u.unsent, m.key ≠ n.key := by simpa using waits
      by_cases free : u.hasRoom (supervisor p) = true
      · rw [joins fresh ((u.hasRoom_iff p).mp free), PortUnit.place_joins _ fresh free]
      · rw [loses fresh (fun r => free ((u.hasRoom_iff p).mpr r)), PortUnit.place_loses _ fresh free]
  refine ⟨rfl, fun q other => by simp [State.notify, State.onPort, other], fun w h => ?_, ?_, fun _ => rfl, ?_, ?_⟩
  · rw [routed, handled w h]
    refine ⟨fun busy => PortUnit.startNext_busy (by simpa using busy), fun f d payload idle ready => ?_,
      fun idle none_ready => ⟨fun g flow => ?_, fun m rest flow unsent => ?_⟩⟩
    · exact PortUnit.startNext_response (by simpa using idle) (by simpa using ready)
    · rw [PortUnit.startNext_of_no_response (by simpa using idle) (by simpa using none_ready)]
      simp [flow]
    · rw [PortUnit.startNext_of_no_response (by simpa using idle) (by simpa using none_ready)]
      simp [flow, unsent, Notice.bytes, noticeType]
  · intro idle none_ready flow sending unsent
    have free : u.hasRoom (supervisor p) = true := by
      rw [PortUnit.hasRoom_iff]
      simp [PortUnit.outbox, sending, unsent]
    let w : PortUnit := { u with unsent := u.unsent ++ [n] }
    have next : w.startNext = _ := PortUnit.startNext_of_no_response idle none_ready
    rw [routed, PortUnit.place_joins _ (by simp [unsent]) free, next]
    simp [w, flow, unsent, Notice.bytes, noticeType]
  · exact fun c => ⟨_, rfl, rfl, rfl, ncel_payload ..⟩
  · intro id cause hold
    refine ⟨fun gone => by simp [State.nlot, gone], fun l known => ⟨_, ?_, rfl, rfl, nlot_payload ..⟩⟩
    simp [State.nlot, known, hostPort]

/-! ## The end of a frame (R6, R7, R14 to R16, R19) -/

/-- The head of the intake queue is taken into an empty service slot; depth 2 clears the hold-off flag. -/
theorem PortUnit.take_next {u : PortUnit} {f : Frame} {rest : List Frame} (free : u.service = none)
    (intake : u.intake = f :: rest) : u.take =
      { u with
        service := some ⟨f, rest.length, .taken⟩
        intake := rest
        holdOff := u.holdOff && decide (rest.length ≠ 2)
        flow := if rest.length = 2 ∧ u.holdOff = true then
            (if u.flow = some Flow.hoff then none else some Flow.rsum) else u.flow } := by
  have held : Config.resumeAt = 2 := rfl
  by_cases resumes : rest.length = 2 ∧ u.holdOff = true
  · simp [PortUnit.take, free, intake, held, resumes, PortUnit.clearHoldOff]
  · have stays : (u.holdOff && decide (rest.length ≠ 2)) = u.holdOff := by
      cases flag : u.holdOff <;> simp_all
    simp only [PortUnit.take, free, intake, held, if_neg resumes, stays]

/-- With nothing waiting, or a request in service, nothing is taken. -/
theorem PortUnit.take_stays {u : PortUnit} (h : u.service ≠ none ∨ u.intake = []) : u.take = u := by
  unfold PortUnit.take
  split
  · rename_i free waiting
    simp [free, waiting] at h
  · rfl

/-- The end of a frame that is not FRST's GOOD response. -/
theorem exec_frameSent {s : State} {p : Port} (quiet : s.Quiet) (stays : (s.port p).sendsFloorReset = false) :
    exec (.frameSent p) s = .next (s.setPort p (s.port p).sent) := by
  show execFrameSent p s = _
  simp [execFrameSent, quiet, stays, State.onPort]

/-- A frame that is no response brings no floor reset about. -/
theorem PortUnit.sendsFloorReset_of_line {u : PortUnit} (other : ∀ bytes, u.line ≠ some ⟨.response, bytes⟩) :
    u.sendsFloorReset = false := by
  unfold PortUnit.sendsFloorReset
  split
  · exact absurd ‹_› (other _)
  · rfl

/-- Settles O14, case by case of what the line carries. -/
theorem transmitterSendsByPriority : Obligations.TransmitterSendsByPriority := by
  refine ⟨fun u => ⟨PortUnit.startNext_busy, fun f d payload => PortUnit.startNext_response, fun idle none_ready => ?_⟩,
    fun s p quiet => ?_⟩
  · rw [PortUnit.startNext_of_no_response idle none_ready]
    exact ⟨fun w flow => by simp [flow], fun flow n rest unsent => by simp [flow, unsent],
      fun flow unsent => by simp [flow, unsent]⟩
  · intro u freed
    have ends (other : ∀ bytes, u.line ≠ some ⟨.response, bytes⟩) :=
      exec_frameSent quiet (PortUnit.sendsFloorReset_of_line other)
    refine ⟨fun idle => ?_, fun bytes line stays intake => ?_, fun bytes f rest line stays intake => ?_,
      fun bytes line => ?_, fun bytes line => ?_, fun bytes line => ⟨fun flow => ?_, fun flow => ?_⟩⟩
    · have sent : u.sent = u := by simp [PortUnit.sent, idle]
      rw [ends (by simp [idle]), sent, State.setPort_self]
    · have sent : u.sent = freed.take.startNext := by simp [PortUnit.sent, line, stays, freed]
      have none_waits : freed.take = freed := PortUnit.take_stays (.inr intake)
      rw [exec_frameSent quiet stays, sent, none_waits]
    · have sent : u.sent = freed.take.startNext := by simp [PortUnit.sent, line, stays, freed]
      have head_taken : freed.take = _ := PortUnit.take_next rfl intake
      rw [exec_frameSent quiet stays, sent, head_taken]
    · have sent : u.sent = ({ u with sending := none, line := none } : PortUnit).startNext := by
        simp [PortUnit.sent, line]
      rw [ends (by simp [line]), sent]
    · have sent : u.sent = ({ u with line := none } : PortUnit).startNext := by simp [PortUnit.sent, line]
      rw [ends (by simp [line]), sent]
    · have sent : u.sent = ({ u with line := none } : PortUnit).resumeFirst := by simp [PortUnit.sent, line]
      rw [ends (by simp [line]), sent]
      simp [PortUnit.resumeFirst, flow, Flow.bytes, noticeType]
    · have sent : u.sent = ({ u with line := none } : PortUnit).resumeFirst := by simp [PortUnit.sent, line]
      rw [ends (by simp [line]), sent]
      simp [PortUnit.resumeFirst, flow]

/-! ## The receiver (R2, R3) -/

theorem exec_receivedByte {s : State} (quiet : s.Quiet) (p : Port) (b : Byte) :
    exec (.receivedByte p b) s = .next (s.setPort p ((s.port p).receive b)) := by
  show execReceivedByte p b s = _
  simp [execReceivedByte, quiet, State.onPort]

theorem exec_frameComplete {s : State} {p : Port} {n : Nat} {got : List Byte} (quiet : s.Quiet)
    (body : (s.port p).receiver = .body n got) (lacksOne : got.length + 1 = n + 3) (b : Byte) :
    exec (.frameComplete p b) s = .next (s.setPort p ((s.port p).complete n (got ++ [b]))) := by
  have awaits : (s.port p).awaitsLast = some (n, got) := by simp [PortUnit.awaitsLast, body, lacksOne]
  show execFrameComplete p b s = _
  simp [execFrameComplete, quiet, State.onPort, awaits]

section receive
variable {u : PortUnit} {b : Byte}

theorem PortUnit.receive_hunting (h : u.receiver = .hunting) :
    u.receive b = if b = 0x5A then { u with receiver := .synced } else u := by
  simp only [PortUnit.receive, h]
  rfl

theorem PortUnit.receive_synced (h : u.receiver = .synced) :
    u.receive b = if b = 0xA5 then { u with receiver := .header } else if b = 0x5A then u
      else { u with receiver := .hunting } := by
  simp only [PortUnit.receive, h]
  rfl

theorem PortUnit.receive_length (h : u.receiver = .header) (long : 6 ≤ b.toNat) :
    u.receive b = { u with receiver := .body b.toNat [] } := by
  simp [PortUnit.receive, h, long]

theorem PortUnit.receive_short (h : u.receiver = .header) (short : b.toNat < 6) :
    u.receive b = { u with receiver := .hunting, crcErrors := min 65535 (u.crcErrors + 1) } := by
  simp [PortUnit.receive, h, Nat.not_le.mpr short, PortUnit.countCrcError, bump, Config.saturation]

theorem PortUnit.receive_collects {n : Nat} {got : List Byte} (h : u.receiver = .body n got)
    (more : got.length + 1 < n + 3) : u.receive b = { u with receiver := .body n (got ++ [b]) } := by
  have : frameWhole n (got ++ [b]) = false := by simp [frameWhole]; omega
  simp [PortUnit.receive, h, this]

theorem PortUnit.receive_completes {n : Nat} {got : List Byte} (h : u.receiver = .body n got)
    (lacksOne : got.length + 1 = n + 3) : u.receive b = u.complete n (got ++ [b]) := by
  have : frameWhole n (got ++ [b]) = true := by simp [frameWhole, lacksOne]
  simp [PortUnit.receive, h, this]

end receive

/-- Settles O15, condition by condition of the receiver. -/
theorem receiverFollowsBytes : Obligations.ReceiverFollowsBytes := by
  intro s p quiet u
  have byte := exec_receivedByte quiet p
  refine ⟨fun b => ⟨?_, ?_, ?_, ?_, ?_, ?_⟩, fun hunting => ?_, fun other => ?_⟩
  · intro hunting
    rw [byte, PortUnit.receive_hunting hunting]
  · intro synced
    rw [byte, PortUnit.receive_synced synced]
  · intro header long
    rw [byte, PortUnit.receive_length header long]
  · intro header short
    have below : exec (.lengthBelow6 p b) s = .next (s.setPort p
        { u with receiver := .hunting, crcErrors := min 65535 (u.crcErrors + 1) }) := by
      show execLengthBelow6 p b s = _
      simp [execLengthBelow6, quiet, State.onPort, u, header, short, PortUnit.countCrcError, bump, Config.saturation]
    exact ⟨by rw [below, byte, PortUnit.receive_short header short], below⟩
  · intro n got body more
    rw [byte, PortUnit.receive_collects body more]
  · intro n got body lacksOne
    rw [byte, PortUnit.receive_completes body lacksOne, exec_frameComplete quiet body lacksOne]
  · show execGapAbort p s = _
    have gap : u.gap = u := by simp [PortUnit.gap, hunting]
    simp [execGapAbort, quiet, State.onPort, gap, u]
  · show execGapAbort p s = _
    have gap : u.gap = { u with receiver := .hunting, gapAborts := min 65535 (u.gapAborts + 1) } := by
      unfold PortUnit.gap
      split
      · exact absurd ‹_› other
      · rfl
    simp [execGapAbort, quiet, State.onPort, gap, u]

/-! ## A complete frame (R4 to R7) -/

/-- A frame joins the intake queue while fewer than 8 wait; depth 6 sets the hold-off flag. -/
theorem PortUnit.join_room {u : PortUnit} (room : u.intake.length < 8) (f : Frame) : u.join f =
    { u with
      intake := u.intake ++ [f]
      holdOff := u.holdOff || decide (u.intake.length + 1 = 6)
      flow := if u.intake.length + 1 = 6 ∧ u.holdOff = false then
          (if u.flow = some Flow.rsum then none else some Flow.hoff) else u.flow } := by
  have eight : Config.intakeRoom = 8 := rfl
  have six : Config.holdOffAt = 6 := rfl
  by_cases sets : u.intake.length + 1 = 6 ∧ u.holdOff = false
  · simp [PortUnit.join, eight, room, six, sets, PortUnit.setHoldOff]
  · have stays : (u.holdOff || decide (u.intake.length + 1 = 6)) = u.holdOff := by
      cases flag : u.holdOff <;> simp_all
    simp only [PortUnit.join, eight, if_pos room, six, List.length_append, List.length_singleton, Bool.not_eq_true',
      if_neg sets, stays]

/-- A frame that finds 8 waiting is discarded and counted. -/
theorem PortUnit.join_full {u : PortUnit} (full : 8 ≤ u.intake.length) (f : Frame) :
    u.join f = { u with overruns := min 65535 (u.overruns + 1), overrunLatch := true } := by
  have eight : Config.intakeRoom = 8 := rfl
  simp [PortUnit.join, eight, Nat.not_lt.mpr full, PortUnit.countOverrun, bump, Config.saturation]

/-- The bytes behind the length byte of a frame spell its code, tag, source and payload, when the CRC is good and the
type is REQUEST (R4, 12.1). -/
theorem judge_frame (type code tag : Byte) (src : Id) (payload crc : List Byte) :
    judge (6 + payload.length) (type :: code :: tag :: (be32 src ++ (payload ++ crc))) =
      if crc = be 2 (crc16 (BitVec.ofNat 8 (6 + payload.length) :: type :: code :: tag :: (be32 src ++ payload))).toNat
          ∧ type = 0x01 then some ⟨code, tag, src, payload⟩ else none := by
  obtain ⟨a, b, c, d, bytes⟩ : ∃ a b c d, be32 src = [a, b, c, d] := ⟨_, _, _, _, rfl⟩
  have source : BitVec.ofNat 32 (ofBe [a, b, c, d]) = src := by
    rw [← bytes, be32, ofBe_be 4 _ (by simpa using src.isLt), BitVec.ofNat_toNat, BitVec.setWidth_eq]
  simp [judge, bytes, source, requestType]

/-- A frame that joins while the service slot and the queue are empty is taken at once (R7). -/
theorem PortUnit.join_take_free {u : PortUnit} (free : u.service = none) (empty : u.intake = []) (f : Frame) :
    (u.join f).take = { u with service := some ⟨f, 0, .taken⟩ } := by
  have joined : u.join f = _ := PortUnit.join_room (by simp [empty]) f
  have slot : (u.join f).service = none := by rw [joined]; exact free
  have queue : (u.join f).intake = [f] := by simp [joined, empty]
  rw [PortUnit.take_next slot queue, joined]
  simp [empty]

/-- A frame that joins while a request is in service waits. -/
theorem PortUnit.join_take_busy {u : PortUnit} (busy : u.service ≠ none) (f : Frame) : (u.join f).take = u.join f := by
  refine PortUnit.take_stays (.inl ?_)
  unfold PortUnit.join
  split
  · dsimp only
    split <;> exact busy
  · exact busy

theorem PortUnit.complete_bad {u : PortUnit} {n : Nat} {got : List Byte} (bad : judge n got = none) :
    u.complete n got = { u with receiver := .hunting, crcErrors := min 65535 (u.crcErrors + 1) } := by
  rw [PortUnit.complete, bad]
  rfl

theorem PortUnit.complete_good {u : PortUnit} {n : Nat} {got : List Byte} {f : Frame} (good : judge n got = some f) :
    u.complete n got = (({ u with receiver := .hunting } : PortUnit).join f).take.startNext := by
  rw [PortUnit.complete, good]

/-- Settles O16: the frame is judged, and a good request joins the queue and is taken where the slot is free. -/
theorem completeFrameJudged : Obligations.CompleteFrameJudged := by
  intro s p type code tag src payload c1 c2 quiet _ u n body good f waits
  have bytes : body ++ [c1] ++ [c2] = type :: code :: tag :: (be32 src ++ (payload ++ [c1, c2])) := by simp [body]
  have completes : exec (.frameComplete p c2) s = .next (s.setPort p (u.complete n (body ++ [c1] ++ [c2]))) :=
    exec_frameComplete quiet waits (by simp [body, n]; omega) c2
  have judged := judge_frame type code tag src payload [c1, c2]
  rw [← bytes] at judged
  let h : PortUnit := { u with receiver := .hunting }
  have arrives (crc : good) (request : type = 0x01) :
      exec (.frameComplete p c2) s = .next (s.setPort p (h.join f).take.startNext) := by
    rw [completes, PortUnit.complete_good (judged.trans (if_pos ⟨crc, request⟩))]
  refine ⟨fun bad => ?_, fun crc request free empty => ?_, fun crc request busy room => ?_,
    fun crc request busy full => ?_⟩
  · have refused : ¬(good ∧ type = 0x01) := by tauto
    rw [completes, PortUnit.complete_bad (judged.trans (if_neg refused))]
  · have taken : (h.join f).take = _ := PortUnit.join_take_free (u := h) free empty f
    rw [arrives crc request, taken]
  · have waits : (h.join f).take = h.join f := PortUnit.join_take_busy (u := h) busy f
    have joined : h.join f = _ := PortUnit.join_room (u := h) room f
    rw [arrives crc request, waits, joined]
  · have waits : (h.join f).take = h.join f := PortUnit.join_take_busy (u := h) busy f
    have discarded : h.join f = _ := PortUnit.join_full (u := h) full f
    rw [arrives crc request, waits, discarded]

/-! ## A whole frame, byte by byte (R1, R2, 12.1) -/

/-- A run goes on from the state that its first step leaves. -/
theorem run_succ {M : Host.Core} {k : Nat} {s t : M.State} (first : M.step s = .next t) :
    M.run (k + 1) s = M.run k t := by
  simp only [Host.Core.run, first]

/-- Received bytes at the front of the commands reach their port one by one. -/
theorem run_receivedBytes (p : Port) (bytes : List Byte) (rest : List Instr) {s : State} (quiet : s.Quiet) :
    Host.Core.run Sys2Proof.core bytes.length { s with pending := bytes.map (.receivedByte p) ++ rest }
      = .next ({ s with pending := rest }.setPort p (bytes.foldl PortUnit.receive (s.port p))) := by
  induction bytes generalizing s with
  | nil => exact congrArg Host.Outcome.next (State.setPort_self { s with pending := rest } p).symm
  | cons b bytes ih =>
    have first : Sys2Proof.core.step { s with pending := (b :: bytes).map (.receivedByte p) ++ rest }
        = .next { s.setPort p ((s.port p).receive b) with pending := bytes.map (.receivedByte p) ++ rest } :=
      exec_receivedByte (s := { s with pending := bytes.map (.receivedByte p) ++ rest }) quiet p b
    rw [List.length_cons, run_succ first, ih (s := s.setPort p ((s.port p).receive b)) quiet, State.setPort_port_same]
    exact congrArg Host.Outcome.next (State.setPort_setPort { s with pending := rest } p _ _)

/-- Bytes that do not complete a frame are collected. -/
theorem PortUnit.receive_collects_all {n : Nat} {u : PortUnit} (bytes got : List Byte) (h : u.receiver = .body n got)
    (more : got.length + bytes.length < n + 3) :
    bytes.foldl PortUnit.receive u = { u with receiver := .body n (got ++ bytes) } := by
  induction bytes generalizing u got with
  | nil => simp [← h]
  | cons b bytes ih =>
    rw [List.length_cons] at more
    rw [List.foldl_cons, PortUnit.receive_collects h (by omega), ih (got ++ [b]) rfl (by simp; omega)]
    simp

/-- A whole request frame received by a hunting receiver joins the intake queue (12.1). -/
theorem PortUnit.receive_frame {u : PortUnit} (hunting : u.receiver = .hunting) (code tag : Byte) (src : Id)
    {payload : List Byte} (short : payload.length ≤ 249) :
    (frameBytes 0x01 code tag src payload).foldl PortUnit.receive u
      = (u.join ⟨code, tag, src, payload⟩).take.startNext := by
  have size : (BitVec.ofNat 8 (6 + payload.length)).toNat = 6 + payload.length := by
    rw [BitVec.toNat_ofNat, Nat.mod_eq_of_lt (by omega)]
  let guarded := BitVec.ofNat 8 (6 + payload.length) :: 0x01 :: code :: tag :: (be32 src ++ payload)
  obtain ⟨c1, c2, crc⟩ : ∃ c1 c2, be 2 (crc16 guarded).toNat = [c1, c2] := ⟨_, _, rfl⟩
  let got := 0x01 :: code :: tag :: (be32 src ++ (payload ++ [c1]))
  have frame : frameBytes 0x01 code tag src payload =
      0x5A :: 0xA5 :: BitVec.ofNat 8 (6 + payload.length) :: (got ++ [c2]) := by
    simp [frameBytes, got, Config.syncFirst, Config.syncSecond, ← crc, guarded]
  have header : (u.receive 0x5A).receive 0xA5 = { u with receiver := .header } := by
    rw [PortUnit.receive_hunting hunting]
    exact PortUnit.receive_synced rfl
  have collected : (({ u with receiver := .header } : PortUnit).receive (BitVec.ofNat 8 (6 + payload.length)))
      = { u with receiver := .body (6 + payload.length) [] } := by
    rw [PortUnit.receive_length rfl (by omega), size]
  have whole : judge (6 + payload.length) (got ++ [c2]) = some ⟨code, tag, src, payload⟩ := by
    have judged := judge_frame 0x01 code tag src payload [c1, c2]
    rw [if_pos ⟨crc.symm, rfl⟩] at judged
    simpa [got] using judged
  rw [frame, List.foldl_cons, List.foldl_cons, header, List.foldl_cons, collected, List.foldl_append,
    PortUnit.receive_collects_all got [] rfl (by simp [got]; omega), List.foldl_cons, List.foldl_nil,
    PortUnit.receive_completes rfl (by simp [got]; omega), List.nil_append, PortUnit.complete_good whole]
  simp [← hunting]

/-- Settles O17, through the frame as its bytes move the receiver. -/
theorem requestFrameReceivedWhole : Obligations.RequestFrameReceivedWhole := by
  intro s p code tag src payload quiet short hunting
  have size : 12 + payload.length = (frameBytes 0x01 code tag src payload).length := by
    simp [frameBytes]
    omega
  rw [size, run_receivedBytes p _ s.pending quiet, PortUnit.receive_frame hunting code tag src short]

end Sys2Proof.Machine
end

section
/-! Every request's payload is read back whole (R9, R195, R196, 12.4, 12.5). -/

namespace Sys2Proof.Machine

/-! ## Reading on behind a field -/

/-- A payload with nothing behind it: every field of it has a rest. -/
theorem Cursor.start_eq (payload : List Byte) : Cursor.start payload = ⟨8, payload ++ []⟩ := by
  rw [List.append_nil]
  rfl

theorem Cursor.set16_be (o : Nat) (v : Set16) (rest : List Byte) :
    (⟨o, be 2 v.toNat ++ rest⟩ : Cursor).set16 = .ok (v, ⟨o + 2, rest⟩) := by
  have bound := v.isLt
  simp only [Cursor.set16, Cursor.num_be o rest (k := 2) (lo := 0) (hi := 65535) (by omega) (by omega) (by omega),
    checked_bind_ok, BitVec.ofNat_toNat, BitVec.setWidth_eq]

theorem Cursor.sites_cons (o : Nat) (v : SiteSet) (rest : List Byte) :
    (⟨o, v :: rest⟩ : Cursor).sites = .ok (v, ⟨o + 1, rest⟩) := by
  have bound := v.isLt
  have byte : v :: rest = be 1 v.toNat ++ rest := by simp [be]
  rw [byte]
  simp only [Cursor.sites, Cursor.num_be o rest (k := 1) (lo := 0) (hi := 255) (by omega) (by omega) (by omega),
    checked_bind_ok, BitVec.ofNat_toNat, BitVec.setWidth_eq]

/-- An optional field is read back, absent or present. -/
theorem Cursor.opt_asked {α : Type} {v : Option α} {write : α → List Byte} {read : Cursor → Checked (α × Cursor)}
    (o : Nat) (rest : List Byte)
    (one : ∀ a, v = some a → ∀ o, read ⟨o, write a ++ rest⟩ = .ok (a, ⟨o + (write a).length, rest⟩)) :
    (⟨o, asked (v.map write) ++ rest⟩ : Cursor).opt read = .ok (v, ⟨o + (asked (v.map write)).length, rest⟩) := by
  cases v with
  | none => exact Cursor.opt_none o rest read
  | some a =>
    rw [Option.map_some, Cursor.opt_some, one a rfl]
    simp [Except.bind, asked, Nat.add_assoc, Nat.add_comm 1]

theorem checked_bind_of {α β : Type} {x : Checked α} {a : α} (f : α → Checked β) (reads : x = .ok a) :
    (x >>= f) = f a := by
  rw [reads, checked_bind_ok]

/-! ## Enumerated values (12.3) -/

theorem readClass_byte (x : LotClass) : readClass x.byte = some x := by cases x <;> rfl

theorem readMode_byte (x : Mode) : readMode x.byte = some x := by cases x <;> rfl

theorem readBinClass_byte (x : BinClass) : readBinClass x.byte = some x := by cases x <;> rfl

theorem readHoldKind_byte (x : HoldKind) : readHoldKind x.byte = some x := by cases x <;> rfl

theorem readDisposition_byte (x : Disposition) : readDisposition x.byte = some x := by cases x <;> rfl

theorem readEndReason_byte (x : EndReason) : readEndReason x.byte = some x := by cases x <;> rfl

theorem readWindowKind_byte (x : WindowKind) : readWindowKind x.byte = some x := by cases x <;> rfl

theorem readKind_byte (x : EquipKind) : readKind x.byte = some x := by cases x <;> rfl

/-! ## Lots and holds (chapters 4 and 8) -/

section lots
variable {id : Id} (nonzero : id ≠ 0)
include nonzero

theorem readLotId_bytes : readLotId (be32 id) = .ok id := by
  simp only [readLotId, Cursor.start_eq, Cursor.id_be32_one _ _ nonzero, checked_bind_ok, Cursor.finish_nil]

theorem readLpri_bytes {k : Nat} (range : k ≤ 7) : readLpri (be32 id ++ be 1 k) = .ok (id, k) := by
  simp (disch := omega) only [readLpri, Cursor.start_eq, List.append_assoc, Cursor.id_be32_one _ _ nonzero,
    checked_bind_ok, Cursor.num_be, Cursor.finish_nil]

theorem readQlotLot_summary : readQlotLot (0x01 :: be32 id) = .ok id := by
  simp only [readQlotLot, Cursor.start_eq, List.cons_append, Cursor.pick_cons _ _ (rfl : readView 0x01 = some .summary),
    Cursor.id_be32_one _ _ nonzero, checked_bind_ok, Cursor.finish_nil]

theorem readQlotLot_counts : readQlotLot (0x02 :: be32 id) = .ok id := by
  simp only [readQlotLot, Cursor.start_eq, List.cons_append, Cursor.pick_cons _ _ (rfl : readView 0x02 = some .counts),
    Cursor.id_be32_one _ _ nonzero, checked_bind_ok, Cursor.finish_nil]

theorem readQlotHolds_bytes {n : Nat} (range : n ≤ 63) : readQlotHolds (0x03 :: (be32 id ++ be 1 n)) = .ok (id, n) := by
  simp (disch := omega) only [readQlotHolds, Cursor.start_eq, List.cons_append, List.append_assoc,
    Cursor.pick_cons _ _ (rfl : readView 0x03 = some .holds), Cursor.id_be32_one _ _ nonzero, checked_bind_ok,
    Cursor.num_be, Cursor.finish_nil]

theorem readQlotList_bytes : readQlotList (0x04 :: be32 id) = .ok id := by
  simp only [readQlotList, Cursor.start_eq, List.cons_append, Cursor.pick_cons _ _ (rfl : readView 0x04 = some .list),
    Cursor.id_be32_one _ _ nonzero, checked_bind_ok, Cursor.finish_nil]

theorem readHold_bytes {n : Nat} (range : n ≤ 65535) : readHold (be32 id ++ be 2 n) = .ok (id, n) := by
  simp (disch := omega) only [readHold, Cursor.start_eq, List.append_assoc, Cursor.id_be32_one _ _ nonzero,
    checked_bind_ok, Cursor.num_be, Cursor.finish_nil]

theorem readQres_bytes {m r : Nat} (low : 1 ≤ m) (high : m ≤ 2000) (part : r ≤ m) :
    readQres (be32 id ++ be 2 m ++ be 2 r) = .ok (id, m, r) := by
  simp (disch := omega) only [readQres, Cursor.start_eq, List.append_assoc, Cursor.id_be32_one _ _ nonzero,
    checked_bind_ok, Cursor.num_be, Cursor.finish_nil]

end lots

/-- The arguments of a hold fit in two bytes. -/
theorem argRange_le (kind : HoldKind) : kind.argRange.2 ≤ 65535 := by cases kind <;> decide

theorem readHclr_bytes {f : HclrFields} (range : f.InRange) : readHclr f.bytes = .ok f := by
  obtain ⟨nonzero, low, high, fits⟩ := range
  have wide := argRange_le f.kind
  have disposition : (readDisposition f.disposition.byte).filter (fun d => d = .none || f.kind = .qa)
      = some f.disposition := by
    rw [readDisposition_byte]
    simpa [Option.filter, or_iff_not_imp_left] using fits
  simp (disch := omega) only [readHclr, HclrFields.bytes, Cursor.start_eq, List.append_assoc, List.cons_append,
    List.nil_append, Cursor.id_be32_one _ _ nonzero, checked_bind_ok,
    Cursor.pick_cons _ _ (readHoldKind_byte f.kind), Cursor.num_be,
    Cursor.pick_cons (read := fun b => (readDisposition b).filter fun d => d = .none || f.kind = .qa) _ _ disposition,
    Cursor.finish_nil]

theorem Bins.bytes_length (v : Bins) : v.bytes.length = 32 := by simp [Bins.bytes, List.length_flatMap]

/-- 16 quantities are read back bin by bin. -/
theorem Cursor.bins_bytes (o : Nat) (v : Bins) (rest : List Byte) (fits : ∀ b : Fin 16, v[b] ≤ 65535) :
    (⟨o, v.bytes ++ rest⟩ : Cursor).bins = .ok (v, ⟨o + 32, rest⟩) := by
  have one (o n : Nat) (rest : List Byte) (fits : n ≤ 65535) :
      (⟨o, be 2 n ++ rest⟩ : Cursor).num 2 0 65535 = .ok (n, ⟨o + (be 2 n).length, rest⟩) := by
    rw [be_length]
    exact Cursor.num_be o rest (by omega) (by omega) fits
  have all : ∀ n ∈ v.toList, n ≤ 65535 := by
    intro n member
    obtain ⟨b, lt, rfl⟩ := List.getElem_of_mem member
    simpa using fits ⟨b, by simpa using lt⟩
  have read := Cursor.many_flatMap (read := fun c => c.num 2 0 65535) (write := be 2) (ok := fun n => n ≤ 65535) one
    v.toList o rest all
  have size : (v.toList.flatMap (be 2)).length = 32 := v.bytes_length
  rw [size, Vector.length_toList] at read
  simp only [Cursor.bins, Bins.bytes, read, checked_bind_ok]
  congr 2
  ext b lt
  simp [List.getD_eq_getElem?_getD]

theorem Cursor.restore_bytes (o : Nat) (r : Restore) (rest : List Byte) (range : r.InRange) :
    (⟨o, r.bytes ++ rest⟩ : Cursor).restore = .ok (r, ⟨o + r.bytes.length, rest⟩) := by
  obtain ⟨pass, tested, lost, bins⟩ := range
  have size : r.bytes.length = 1 + 2 + 2 + 32 + 32 := by simp [Restore.bytes, Bins.bytes_length]
  simp (disch := omega) only [size, ← Nat.add_assoc]
  simp (disch := omega) only [Cursor.restore, Restore.bytes, List.append_assoc, Cursor.num_be, checked_bind_ok,
    Cursor.bins_bytes _ r.final _ fun b => (bins b).1, Cursor.bins_bytes _ r.pool _ fun b => (bins b).2]

theorem readLent_bytes {f : LentFields} (range : f.InRange) : readLent f.bytes = .ok f := by
  obtain ⟨nonzero, base, low, high, restore⟩ := range
  have part (o : Nat) := Cursor.opt_asked o [] fun r present o => Cursor.restore_bytes o r [] (restore r present)
  simp (disch := omega) only [readLent, LentFields.bytes, Cursor.start_eq, List.append_assoc, List.cons_append,
    List.nil_append, Cursor.id_be32_one _ _ nonzero, checked_bind_ok, Cursor.below_num1,
    Cursor.pick_cons _ _ (readClass_byte f.cls), Cursor.num_be, part, Cursor.finish_nil]

/-! ## Cells and equipment (chapters 2, 3 and 6) -/

section cells
variable (c : CellNo)

theorem readCell_bytes : readCell (num1 c) = .ok c := by
  simp (disch := omega) only [readCell, Cursor.start_eq, Cursor.below_num1, checked_bind_ok, Cursor.finish_nil]

theorem readCdck_bytes {h t : Id} (handler : h ≠ 0) (tester : t ≠ 0) :
    readCdck (num1 c ++ be32 h ++ be32 t) = .ok (c, h, t) := by
  simp (disch := omega) only [readCdck, Cursor.start_eq, List.append_assoc, Cursor.below_num1, checked_bind_ok,
    Cursor.id_be32_one _ _ handler, Cursor.id_be32_one _ _ tester, Cursor.finish_nil]

theorem readProgram_bytes {program : Id} (nonzero : program ≠ 0) :
    readProgram (num1 c ++ be32 program) = .ok (c, program) := by
  simp (disch := omega) only [readProgram, Cursor.start_eq, List.append_assoc, Cursor.below_num1, checked_bind_ok,
    Cursor.id_be32_one _ _ nonzero, Cursor.finish_nil]

theorem readCmod_bytes (m : Mode) : readCmod (num1 c ++ [m.byte]) = .ok (c, m) := by
  simp (disch := omega) only [readCmod, Cursor.start_eq, List.append_assoc, List.cons_append, Cursor.below_num1,
    checked_bind_ok, Cursor.pick_cons _ _ (readMode_byte m), List.nil_append, Cursor.finish_nil]

theorem readCsen_bytes (x : Fin 8) : readCsen (num1 c ++ num1 x) = .ok (c, x) := by
  simp (disch := omega) only [readCsen, Cursor.start_eq, List.append_assoc, Cursor.below_num1, checked_bind_ok,
    Cursor.finish_nil]

theorem readEcnf_bytes {k : Capability} (range : k.InRange) : readEcnf (num1 c ++ k.bytes) = .ok (c, k) := by
  obtain ⟨low, low', high, high', kit⟩ := range
  simp (disch := omega) only [readEcnf, Capability.bytes, Cursor.start_eq, List.append_assoc, List.cons_append,
    List.nil_append, Cursor.below_num1, checked_bind_ok, Cursor.set16_be, Cursor.temp_temperature, Cursor.num_be,
    Cursor.sites_cons, Cursor.finish_nil]

theorem readEtmp_bytes {t : Int} (low : -60 ≤ t) (high : t ≤ 200) :
    readEtmp (num1 c ++ temperature t) = .ok (c, t) := by
  simp (disch := omega) only [readEtmp, Cursor.start_eq, List.append_assoc, Cursor.below_num1, checked_bind_ok,
    Cursor.temp_temperature, Cursor.finish_nil]

/-- A set of sites that is not empty is a byte that is not 0. -/
theorem toNat_pos_of_ne_zero {w : Nat} {v : BitVec w} (nonzero : v ≠ 0) : 1 ≤ v.toNat := by
  have : v.toNat ≠ 0 := fun e => nonzero (BitVec.eq_of_toNat_eq (by simpa using e))
  omega

theorem Cursor.ability_bytes (o : Nat) (a : Ability) (range : a.InRange) :
    (⟨o, a.bytes ++ []⟩ : Cursor).ability a.kind = .ok (a, ⟨o + a.bytes.length, []⟩) := by
  cases a with
  | handler a =>
    obtain ⟨low, order, high, some_site, kitLow, kitHigh⟩ := range
    have sites := toNat_pos_of_ne_zero some_site
    have bound := a.sites.isLt
    have byte : ∀ rest : List Byte, a.sites :: rest = be 1 a.sites.toNat ++ rest := by simp [be]
    have least : max a.bandMin (-60) = a.bandMin := by omega
    simp (disch := omega) only [Ability.kind, Ability.bytes, Cursor.ability, List.append_assoc,
      List.nil_append, Cursor.set16_be, checked_bind_ok, Cursor.temp_temperature, least, byte, Cursor.num_be,
      BitVec.ofNat_toNat, BitVec.setWidth_eq]
    simp
  | tester a =>
    have some_site : a.sites ≠ 0 := range
    have sites := toNat_pos_of_ne_zero some_site
    have bound := a.sites.isLt
    have byte : ∀ rest : List Byte, a.sites :: rest = be 1 a.sites.toNat ++ rest := by simp [be]
    simp (disch := omega) only [Ability.kind, Ability.bytes, Cursor.ability, List.append_assoc,
      List.nil_append, Cursor.set16_be, checked_bind_ok, byte, Cursor.num_be, Cursor.id_be32,
      BitVec.ofNat_toNat, BitVec.setWidth_eq]
    simp

theorem readEann_bytes {a : Ability} (range : a.InRange) : readEann a.announced = .ok a := by
  simp only [readEann, Ability.announced, Cursor.start_eq, List.cons_append, List.nil_append,
    Cursor.pick_cons _ _ (readKind_byte a.kind), checked_bind_ok, Cursor.ability_bytes _ a range, Cursor.finish_nil]

theorem readEabl_bytes {a : Ability} (range : a.InRange) : readEabl (num1 c ++ a.announced) = .ok (c, a) := by
  simp (disch := omega) only [readEabl, Ability.announced, Cursor.start_eq, List.append_assoc, List.cons_append,
    List.nil_append, Cursor.below_num1, Cursor.pick_cons _ _ (readKind_byte a.kind), checked_bind_ok,
    Cursor.ability_bytes _ a range, Cursor.finish_nil]

end cells

theorem readQeqp_bytes (id : Id) : readQeqp (be32 id) = .ok id := by
  simp (disch := omega) only [readQeqp, Cursor.start_eq, Cursor.id_be32, checked_bind_ok, Cursor.finish_nil]

theorem readErnd_bytes {f : ErndFields} (range : f.InRange) : readErnd f.bytes = .ok f := by
  obtain ⟨run, count⟩ := range
  simp (disch := omega) only [readErnd, ErndFields.bytes, Cursor.start_eq, List.append_assoc, List.cons_append,
    List.nil_append, Cursor.below_num1, checked_bind_ok, Cursor.num_be,
    Cursor.pick_cons _ _ (readEndReason_byte f.reason), Cursor.finish_nil]

/-! ## Clock and configuration (chapters 10 and 11) -/

theorem readClks_none : readClks [0x00] = .ok none := by decide

theorem readClks_bytes {m : Nat} (range : m ≤ 10079) : readClks (0x01 :: be 2 m) = .ok (some m) := by
  have one (a : Nat) (here : some m = some a) (o : Nat) :
      (⟨o, be 2 a ++ []⟩ : Cursor).num 2 0 10079 = .ok (a, ⟨o + (be 2 a).length, []⟩) := by
    cases here
    rw [be_length]
    exact Cursor.num_be o [] (by omega) (by omega) range
  have minute := Cursor.opt_asked (read := fun c => c.num 2 0 10079) 8 [] one
  simp only [Option.map_some, asked] at minute
  simp only [readClks, Cursor.start_eq, minute, checked_bind_ok, Cursor.finish_nil]

theorem readWwin_bytes (i : Fin 4) {w : Window} (start : w.start ≤ 10079) (stop : w.stop ≤ 10079) :
    readWwin (num1 i ++ w.bytes) = .ok (i, w) := by
  simp (disch := omega) only [readWwin, Window.bytes, Cursor.start_eq, List.append_assoc, List.cons_append,
    List.nil_append, Cursor.below_num1, checked_bind_ok, Cursor.pick_cons _ _ (readWindowKind_byte w.kind),
    Cursor.num_be, Cursor.finish_nil]

theorem readWpar_bytes {q : Parameters} (range : q.InRange) : readWpar q.bytes = .ok q := by
  obtain ⟨aging, n1, n2, l1, l2, s1, s2, c1, c2, step, a1, a2, p1, p2, mark⟩ := range
  have part (o : Nat) := Cursor.opt_asked (v := q.mark) (write := be 2) (read := fun c => c.num 2 0 q.period) o []
    fun m here o => by
      have := mark m here
      rw [be_length]
      exact Cursor.num_be o [] (by omega) (by omega) this
  have allowed : ¬(1 ≤ q.aging ∧ q.aging ≤ 4) := by omega
  simp (disch := omega) only [readWpar, Parameters.bytes, Cursor.start_eq, List.append_assoc, Cursor.num_be,
    checked_bind_ok, if_neg allowed, part, Cursor.finish_nil]

theorem Cursor.binRule_bytes (o : Nat) (r : BinRule) (rest : List Byte) (limit : r.limit ≤ 10000) :
    (⟨o, ([r.cls.byte] ++ be 2 r.limit) ++ rest⟩ : Cursor).binRule
      = .ok (r, ⟨o + ([r.cls.byte] ++ be 2 r.limit).length, rest⟩) := by
  simp (disch := omega) only [Cursor.binRule, List.cons_append, List.nil_append,
    Cursor.pick_cons _ _ (readBinClass_byte r.cls), checked_bind_ok, Cursor.num_be]
  simp [Nat.add_assoc]

theorem readWbpl_bytes (i : Fin 8) {plan : BinPlan} (range : plan.InRange) :
    readWbpl (num1 i ++ plan.bytes) = .ok (i, plan) := by
  have all : ∀ r ∈ plan.toList, r.limit ≤ 10000 := by
    intro r member
    obtain ⟨b, lt, rfl⟩ := List.getElem_of_mem member
    simpa using range ⟨b, by simpa using lt⟩
  have rules (o : Nat) := Cursor.many_flatMap Cursor.binRule_bytes plan.toList o [] all
  rw [Vector.length_toList] at rules
  simp (disch := omega) only [readWbpl, BinPlan.bytes, Cursor.start_eq, List.append_assoc, Cursor.below_num1,
    checked_bind_ok, rules, Cursor.finish_nil]
  congr 2
  ext b lt
  simp [List.getD_eq_getElem?_getD]

/-- A family or plan index is read back while its entry may name it. -/
theorem Cursor.pick_within {n hi : Nat} (o : Nat) (c : Fin n) (rest : List Byte) (small : n ≤ 256)
    (within : c.val ≤ hi) (bound : ∀ b : Byte, b.toNat ≤ hi → b.toNat < n) :
    (⟨o, num1 c ++ rest⟩ : Cursor).pick (fun b => if h : b.toNat ≤ hi then some ⟨b.toNat, bound b h⟩ else none)
      = .ok (c, ⟨o + 1, rest⟩) := by
  have byte : (BitVec.ofNat 8 c.val).toNat = c.val := by
    rw [BitVec.toNat_ofNat, Nat.mod_eq_of_lt]
    have := c.isLt
    omega
  have one : num1 c = [BitVec.ofNat 8 c.val] := by simp [num1, be]
  rw [one, List.singleton_append]
  refine Cursor.pick_cons o rest ?_
  rw [dif_pos (by rw [byte]; exact within)]
  exact congrArg some (Fin.ext byte)

theorem top_true (hi : Nat) : top true hi = hi := rfl

theorem top_false (hi : Nat) : top false hi = 0 := rfl

theorem bottom_true (lo : Nat) : bottom true lo = lo := rfl

theorem bottom_false (lo : Nat) : bottom false lo = 0 := rfl

theorem Cursor.product_bytes (o : Nat) {q : Product} (range : q.InRange) (rest : List Byte) :
    (⟨o, q.bytes ++ rest⟩ : Cursor).product = .ok (q, ⟨o + q.bytes.length, rest⟩) := by
  unfold Product.InRange at range
  simp only [Cursor.product, Product.bytes, List.append_assoc, Cursor.flag_flag, checked_bind_ok]
  split at range
  · rename_i defined
    obtain ⟨t1, t2, kit, program, yieldMin, guard, retests, soak, permille, min1, min2, max1, max2, accept, limit1,
      limit2, guard1, guard2⟩ := range
    have options := q.options.isLt
    have programLow := toNat_pos_of_ne_zero program
    have programHigh := q.program.isLt
    rw [defined]
    refine (checked_bind_of _ (Cursor.pick_within _ q.family _ (by omega) (Nat.le_of_lt_succ q.family.isLt) _)).trans ?_
    simp (disch := omega) only [top_true, bottom_true, if_true, Cursor.temp_temperature, checked_bind_ok, Cursor.num_be,
      be32]
    refine (checked_bind_of _ (Cursor.pick_within _ q.plan _ (by omega) (Nat.le_of_lt_succ q.plan.isLt) _)).trans ?_
    simp (disch := omega) only [Cursor.num_be, checked_bind_ok, BitVec.ofNat_toNat, BitVec.setWidth_eq]
    cases q
    cases defined
    simp [Machine.flag, Nat.add_assoc]
  · have defined : q.defined = false := by rw [range]; rfl
    have zero : q.family.val = 0 ∧ q.setPoint = 0 ∧ q.kit = 0 ∧ q.options.toNat = 0 ∧ q.program.toNat = 0
        ∧ q.plan.val = 0 ∧ q.yieldMin = 0 ∧ q.guard = 0 ∧ q.maxRetests = 0 ∧ q.soakTime = 0 ∧ q.samplePermille = 0
        ∧ q.sampleMin = 0 ∧ q.sampleMax = 0 ∧ q.acceptNumber = 0 ∧ q.siteLimit = 0 ∧ q.siteGuard = 0 := by
      rw [range]
      simp [Product.undefined]
    rw [defined]
    refine (checked_bind_of _ (Cursor.pick_within _ q.family _ (by omega) (zero.1.trans_le (Nat.zero_le _)) _)).trans ?_
    simp (disch := omega) only [top_false, bottom_false, Bool.false_eq_true, if_false, Cursor.temp_temperature,
      checked_bind_ok, Cursor.num_be, be32]
    refine (checked_bind_of _ (Cursor.pick_within _ q.plan _ (by omega) (by omega : q.plan.val ≤ 0) _)).trans ?_
    simp (disch := omega) only [Cursor.num_be, checked_bind_ok, BitVec.ofNat_toNat, BitVec.setWidth_eq]
    cases q
    cases defined
    simp [Machine.flag, Nat.add_assoc]

theorem readWprd_bytes (i : Fin 32) {q : Product} (range : q.InRange) :
    readWprd (num1 i ++ q.bytes) = .ok (i, q) := by
  simp (disch := omega) only [readWprd, Cursor.start_eq, List.append_assoc, Cursor.below_num1, checked_bind_ok,
    Cursor.product_bytes _ range, Cursor.finish_nil]

/-! ## EBIN (chapter 7, 12.5) -/

theorem byte_toNat {n : Nat} (fits : n < 256) : (BitVec.ofNat 8 n : Byte).toNat = n := by
  rw [BitVec.toNat_ofNat, Nat.mod_eq_of_lt fits]

/-- An untagged entry, by what its two bytes are worth (12.5). -/
theorem binEntry_untagged {e : BinEntry} {first second : Byte} {reserved : Bool} (untagged : e.origin = none)
    (again : e.again ≤ 127) (one : first.toNat = e.site.val * 16 + e.bin.val)
    (two : second.toNat = e.again + if reserved then 128 else 0) (clean : e.clean = !reserved) :
    Machine.binEntry first second none = e := by
  obtain ⟨site, bin, n, origin, isClean⟩ := e
  subst untagged clean
  have hs := site.isLt
  have hb := bin.isLt
  simp only at again one two
  simp only [Machine.binEntry, one, two, BinEntry.mk.injEq, Fin.ext_iff]
  refine ⟨by omega, by omega, ?_, rfl, ?_⟩
  · cases reserved <;> simp <;> omega
  · cases reserved with
    | false => simp; omega
    | true => simp

/-- A tagged entry, by what its three bytes are worth (12.5). -/
theorem binEntry_tagged {e : BinEntry} {o third : Fin 16} {first second last : Byte} {reserved : Bool}
    (tagged : e.origin = some o) (again : e.again ≤ 127) (one : first.toNat = 128 + e.site.val * 16 + e.bin.val)
    (two : second.toNat = e.again + if reserved then 128 else 0) (three : last.toNat = third.val * 16 + o.val)
    (clean : e.clean = (!reserved && decide (third = 0))) :
    Machine.binEntry first second (some last) = e := by
  obtain ⟨site, bin, n, origin, isClean⟩ := e
  subst tagged clean
  have hs := site.isLt
  have hb := bin.isLt
  have ho := o.isLt
  have zero : decide (third.val * 16 + o.val < 16) = decide (third = 0) :=
    decide_eq_decide.2 ⟨fun _ => Fin.ext (by rw [Fin.val_zero]; omega), fun z => by rw [z, Fin.val_zero]; omega⟩
  simp only at again one two three
  simp only [Machine.binEntry, one, two, three, Option.map_some, Option.getD_some, BinEntry.mk.injEq, Fin.ext_iff,
    Option.some.injEq, zero]
  refine ⟨by omega, by omega, ?_, by omega, ?_⟩
  · cases reserved <;> simp <;> omega
  · congr 1
    cases reserved with
    | false => simp; omega
    | true => simp

/-- An entry is read back with its reserved bits (R196). -/
theorem Cursor.binEntry_wire (o : Nat) (e : BinEntry) (r : Reserved) (rest : List Byte) (again : e.again ≤ 127)
    (clean : e.clean = true ↔ r.second = false ∧ (e.origin = none ∨ r.third = 0)) :
    (⟨o, e.wire r ++ rest⟩ : Cursor).binEntry = .ok (e, ⟨o + (e.wire r).length, rest⟩) := by
  have hs := e.site.isLt
  have hb := e.bin.isLt
  have ht := r.third.isLt
  have two : (BitVec.ofNat 8 (e.again + if r.second then 128 else 0) : Byte).toNat
      = e.again + if r.second then 128 else 0 := byte_toNat (by split <;> omega)
  cases origin : e.origin with
  | none =>
    have one := byte_toNat (n := e.site.val * 16 + e.bin.val) (by omega)
    have isClean : e.clean = !r.second := Bool.eq_iff_iff.2 (by simpa [origin] using clean)
    simp only [BinEntry.wire, origin, Cursor.binEntry, List.cons_append, List.nil_append]
    rw [if_pos (by omega), binEntry_untagged origin again one two isClean]
    rfl
  | some t =>
    have htag := t.isLt
    have one := byte_toNat (n := 128 + e.site.val * 16 + e.bin.val) (by omega)
    have three := byte_toNat (n := r.third.val * 16 + t.val) (by omega)
    have isClean : e.clean = (!r.second && decide (r.third = 0)) :=
      Bool.eq_iff_iff.2 (by simpa [origin] using clean)
    simp only [BinEntry.wire, origin, Cursor.binEntry, List.cons_append, List.nil_append]
    rw [if_neg (by omega), binEntry_tagged origin again one two three isClean]
    rfl

/-- What EBIN's entries carry is read back entry by entry. -/
theorem Cursor.many_binEntry_wire (es : List (BinEntry × Reserved)) (o : Nat) (rest : List Byte)
    (all : ∀ x ∈ es, x.1.again ≤ 127
      ∧ (x.1.clean = true ↔ x.2.second = false ∧ (x.1.origin = none ∨ x.2.third = 0))) :
    Cursor.many Cursor.binEntry es.length ⟨o, (es.flatMap fun x => x.1.wire x.2) ++ rest⟩
      = .ok (es.map fun x => x.1, ⟨o + (es.flatMap fun x => x.1.wire x.2).length, rest⟩) := by
  induction es generalizing o with
  | nil => simp [Cursor.many]
  | cons x es ih =>
    obtain ⟨again, clean⟩ := all x List.mem_cons_self
    have later := ih (o + (x.1.wire x.2).length) fun y member => all y (List.mem_cons_of_mem _ member)
    simp only [List.length_cons, Cursor.many, List.flatMap_cons, List.append_assoc,
      Cursor.binEntry_wire o x.1 x.2 _ again clean, checked_bind_ok, later]
    simp [Nat.add_assoc]

theorem readEbin_wire {lot : Id} {run : Nat} {es : List (BinEntry × Reserved)} (nonzero : lot ≠ 0)
    (number : run ≤ 65535) (some_entry : 1 ≤ es.length) (room : es.length ≤ 120)
    (all : ∀ x ∈ es, x.1.again ≤ 127
      ∧ (x.1.clean = true ↔ x.2.second = false ∧ (x.1.origin = none ∨ x.2.third = 0))) :
    readEbin (be32 lot ++ be 2 run ++ be 1 es.length ++ es.flatMap fun x => x.1.wire x.2)
      = .ok ⟨lot, run, es.map fun x => x.1⟩ := by
  simp (disch := omega) only [readEbin, Cursor.start_eq, List.append_assoc, Cursor.id_be32_one _ _ nonzero,
    checked_bind_ok, Cursor.num_be, Cursor.many_binEntry_wire es _ _ all, Cursor.finish_nil]

theorem readEbin_bytes {f : EbinFields} (range : f.InRange) : readEbin f.bytes = .ok f := by
  obtain ⟨nonzero, number, low, high, each⟩ := range
  have read := readEbin_wire (es := f.entries.map fun e => (e, ⟨false, 0⟩)) nonzero number (by simpa using low)
    (by simpa using high) (by
      intro x member
      obtain ⟨e, inList, rfl⟩ := List.mem_map.1 member
      simpa using each e inList)
  have written : BinEntry.bytes = fun e => e.wire ⟨false, 0⟩ := rfl
  simpa [List.flatMap_map, EbinFields.bytes, written, Function.comp_def] using read

/-- Settles O60: a payload is read field by field, and each field by its own lemma. -/
theorem requestPayloadsReadBack : Obligations.RequestPayloadsReadBack :=
  ⟨fun _ => readLent_bytes,
    fun _ _ nonzero range => ⟨readLotId_bytes nonzero, readLpri_bytes nonzero range⟩,
    fun _ _ nonzero range => ⟨readQlotLot_summary nonzero, readQlotLot_counts nonzero,
      readQlotHolds_bytes nonzero range, readQlotList_bytes nonzero⟩,
    fun _ _ nonzero range => readHold_bytes nonzero range,
    fun _ => readHclr_bytes,
    fun c _ _ handler tester => ⟨readCell_bytes c, readCdck_bytes c handler tester, readProgram_bytes c handler⟩,
    fun c m x => ⟨readCmod_bytes c m, readCsen_bytes c x⟩,
    readQeqp_bytes,
    fun _ _ _ nonzero low high part => readQres_bytes nonzero low high part,
    ⟨readClks_none, fun _ => readClks_bytes⟩,
    fun i _ => readWprd_bytes i,
    fun i _ => readWbpl_bytes i,
    fun _ => readWpar_bytes,
    fun i _ => readWwin_bytes i,
    fun _ range => ⟨readEann_bytes range, fun c => readEabl_bytes c range⟩,
    fun c _ => readEcnf_bytes c,
    fun c _ => readEtmp_bytes c,
    fun _ => readErnd_bytes,
    fun _ => readEbin_bytes,
    fun _ _ _ => readEbin_wire⟩

end Sys2Proof.Machine
end

section
/-! The state after a power-on reset (R19, R22, R35, R60, R74, R137, R162, R166, R179, R181, R183): its records at
their reset values, and every invariant. -/

namespace Sys2Proof.Machine

/-! ## The records of `State.reset` -/

@[simp] theorem State.reset_entry (i : Position) : State.reset.entry i = none := by
  simp [State.entry, State.reset]

@[simp] theorem State.reset_cell (c : CellNo) : State.reset.cell c = Cell.vacant := by
  simp [State.cell, State.reset]

theorem Tables.cleared_product (i : Fin 32) : Tables.cleared.products[i] = Product.undefined := by
  simp [Tables.cleared]

theorem Tables.cleared_rule (i : Fin 8) (b : Fin 16) : (Tables.cleared.plans[i])[b] = ⟨.fail, 10000⟩ := by
  simp [Tables.cleared, Config.whole]

theorem Tables.cleared_window (i : Fin 4) : Tables.cleared.windows[i] = ⟨.dispatch, 0, 0⟩ := by
  simp [Tables.cleared]

/-! ## O2 -/

theorem exec_powerOnReset (cut : WriteCut) (s : State) : exec (.powerOnReset cut) s = .next (s.powerOn cut) := rfl

/-- Settles O2: each record of `State.reset` at its value, and the store by whether a write was cut. -/
theorem powerOnResetLeavesResetState : Obligations.PowerOnResetLeavesResetState := by
  intro cut s
  refine ⟨s.powerOn cut, exec_powerOnReset cut s, State.reset_port, State.reset_entry, State.reset_cell, rfl, rfl, rfl,
    rfl, rfl, rfl, rfl, rfl, fun i => ?_, Tables.cleared_rule, rfl, Tables.cleared_window, rfl, fun idle => ?_,
    fun writing => ?_⟩
  · exact congrArg Product.defined (Tables.cleared_product i)
  · exact if_neg idle
  · refine (if_pos writing).trans ?_
    cases cut <;> rfl

/-! ## O3 -/

/-- A vacant cell has none of the parts of 3.2. -/
theorem Cell.sound_vacant : Cell.vacant.Sound where
  handler := by decide
  tester := by decide
  negotiation := by decide
  proposed := nofun
  preparation := by decide
  run := by decide
  fits := nofun
  fault := by decide
  working := by decide
  free := fun _ => rfl
  formed := by decide
  sites := by decide

theorem State.reset_portCount (p : Port) : State.reset.portCount p = 0 := by
  simp [State.portCount]

/-- Settles O3: the tables are empty, every cell is vacant, and every port unit is at its reset value. -/
theorem resetStateMeetsInvariants : Obligations.ResetStateMeetsInvariants where
  ports := State.PortsSound.reset
  lots := ⟨Nat.zero_le _, List.nodup_nil, nofun⟩
  holds := ⟨Nat.zero_le _, List.nodup_nil, nofun, nofun⟩
  release := ⟨Nat.zero_le _, nofun, List.nodup_nil, by simp [State.reset], nofun⟩
  queue := ⟨List.nodup_nil, by simp [State.reset]⟩
  binding :=
    { cells := fun c => by rw [State.reset_cell]; exact Cell.sound_vacant
      bound := nofun
      named := nofun
      names := fun c id bound => by simp [Cell.vacant] at bound
      running := nofun
      paused := nofun }
  equipment :=
    { ids := fun i j e f at_i => by simp at at_i
      range := fun i e at_i => by simp at at_i
      ports := fun p => by simp [State.reset_portCount]
      handler := fun c id member => by simp [Cell.vacant] at member
      tester := fun c id member => by simp [Cell.vacant] at member
      member := fun i e c at_i => by simp at at_i }
  clock := ⟨Nat.zero_le _, Nat.zero_le _⟩

end Sys2Proof.Machine
end

section
/-! The queries QLOT, QCEL and QEQP (R32, R33, R54, R68, R69, R70). -/

namespace Sys2Proof.Machine

/-! ## A query -/

/-- A supervisor's request whose owner changes nothing is answered, and nothing else happens. -/
theorem exec_answers {α : Type} {i : Instr} {s : State} {p : Port} {r : Req} {mine : List Byte → Bool}
    {read : List Byte → Checked α} {owner : Owner α} {payload : List Byte} {a : α} {reply : Reply}
    (runs : exec i s = .next (s.request p r mine read owner)) (asks : s.Asks p r payload) (fits : mine payload = true)
    (reads : read payload = .ok a) (owns : ∀ f, owner f a s = (s, reply)) :
    exec i s = .next (s.answer p (some r) reply) := by
  obtain ⟨f, h⟩ := State.request_ok (mine := mine) (read := read) (owner := owner) asks fits reads
  rw [runs, h, owns f]

/-- An answer with data is a response and nothing else. -/
theorem State.Asks.good {s : State} {p : Port} {r : Req} {payload : List Byte} (asks : s.Asks p r payload)
    (data : List Byte) :
    OnlyAnswered s (s.answer p (some r) (.good data)) p ∧ AnsweredGood s (s.answer p (some r) (.good data)) p data := by
  obtain ⟨v, service⟩ := asks.service
  exact ⟨onlyAnswered_answer service _ (by simp), answeredGood_answer service _ data⟩

/-! ## The order of a list of lots (R70) -/

theorem insertBy_perm {α : Type} (ahead : α → α → Bool) (x : α) (xs : List α) :
    (insertBy ahead x xs).Perm (x :: xs) := by
  induction xs with
  | nil => exact .refl _
  | cons y ys ih =>
    unfold insertBy
    split
    · exact .refl _
    · exact (ih.cons y).trans (.swap x y ys)

theorem sortBy_perm {α : Type} (ahead : α → α → Bool) (xs : List α) : (sortBy ahead xs).Perm xs := by
  have onto (acc : List α) : (xs.foldl (fun acc x => insertBy ahead x acc) acc).Perm (xs ++ acc) := by
    induction xs generalizing acc with
    | nil => exact .refl _
    | cons x xs ih => exact (ih _).trans (((insertBy_perm ahead x acc).append_left xs).trans List.perm_middle)
  simpa [sortBy] using onto []

/-- An item placed by its rank leaves a list in ascending order of rank. -/
theorem insertBy_ascending {α : Type} (rank : α → Nat) (x : α) {xs : List α}
    (sorted : xs.Pairwise fun a b => rank a ≤ rank b) :
    (insertBy (fun a b => decide (rank a < rank b)) x xs).Pairwise fun a b => rank a ≤ rank b := by
  induction sorted with
  | nil => exact List.pairwise_singleton _ x
  | @cons y ys least sorted ih =>
    unfold insertBy
    split
    next first =>
      have below : rank x < rank y := of_decide_eq_true first
      refine .cons (fun z member => ?_) (.cons least sorted)
      rcases List.mem_cons.1 member with rfl | member
      · exact below.le
      · exact below.le.trans (least z member)
    next later =>
      have above : rank y ≤ rank x := not_lt.1 fun below => later (decide_eq_true below)
      refine .cons (fun z member => ?_) ih
      rcases List.mem_cons.1 ((insertBy_perm _ x ys).mem_iff.1 member) with rfl | member
      · exact above
      · exact least z member

theorem sortBy_ascending {α : Type} (rank : α → Nat) (xs : List α) :
    (sortBy (fun a b => decide (rank a < rank b)) xs).Pairwise fun a b => rank a ≤ rank b := by
  have onto (acc : List α) (sorted : acc.Pairwise fun a b => rank a ≤ rank b) :
      (xs.foldl (fun acc x => insertBy (fun a b => decide (rank a < rank b)) x acc) acc).Pairwise
        fun a b => rank a ≤ rank b := by
    induction xs generalizing acc with
    | nil => exact sorted
    | cons x xs ih => exact ih _ (insertBy_ascending rank x sorted)
  exact onto [] .nil

/-- The rank by which a list of lots is ordered: the entry sequence (R70). -/
def Lot.rank (l : Lot) : Nat := l.sequence.toNat

/-! ## Bytes of the records (12.6) -/

/-- A flag as one byte. -/
def flagBit (b : Bool) : Byte := if b then 0x01 else 0x00

theorem Lot.flagByte_eq (l : Lot) : l.flagByte = flagBit l.overflow ||| (flagBit l.samplePending <<< 1) := by
  unfold Lot.flagByte
  cases l.overflow <;> cases l.samplePending <;> rfl

/-- A payload of an id asks for the list exactly when the id is 0 (R33). -/
theorem asksForList_be32 (id : Id) : asksForList (be32 id) = true ↔ id = 0 := by
  constructor
  · intro list
    have zeros : be32 id = be32 0 := by
      simpa [asksForList, be32, be] using list
    have same := readQeqp_bytes id
    rw [zeros, readQeqp_bytes 0] at same
    exact (Except.ok.inj same).symm
  · rintro rfl
    decide

/-! ## What each query answers -/

section lots
variable {s : State} {p : Port} {id : Id} (nonzero : id ≠ 0)
include nonzero

section absent
variable (absent : s.lot id = none)
include absent

theorem exec_qlotSummary_absent (asks : s.Asks p .qlot (0x01 :: be32 id)) :
    exec (.qlotSummary p) s = .next (s.answer p (some .qlot) (.check .unknownLot id)) :=
  exec_answers rfl asks rfl (readQlotLot_summary nonzero) fun _ => by simp only [qlotSummaryOwner, absent]

theorem exec_qlotCounts_absent (asks : s.Asks p .qlot (0x02 :: be32 id)) :
    exec (.qlotCounts p) s = .next (s.answer p (some .qlot) (.check .unknownLot id)) :=
  exec_answers rfl asks rfl (readQlotLot_counts nonzero) fun _ => by simp only [qlotCountsOwner, absent]

theorem exec_qlotHolds_absent {start : Nat} (range : start ≤ 63)
    (asks : s.Asks p .qlot (0x03 :: (be32 id ++ be 1 start))) :
    exec (.qlotHolds p) s = .next (s.answer p (some .qlot) (.check .unknownLot id)) :=
  exec_answers rfl asks rfl (readQlotHolds_bytes nonzero range) fun _ => by simp only [qlotHoldsOwner, absent]

end absent

section known
variable {l : Lot} (known : s.lot id = some l)
include known

theorem exec_qlotSummary (asks : s.Asks p .qlot (0x01 :: be32 id)) :
    exec (.qlotSummary p) s
      = .next (s.answer p (some .qlot) (.good (l.summary (s.priorityOf id) (s.shipment id)))) :=
  exec_answers rfl asks rfl (readQlotLot_summary nonzero) fun _ => by simp only [qlotSummaryOwner, known]

theorem exec_qlotCounts (asks : s.Asks p .qlot (0x02 :: be32 id)) :
    exec (.qlotCounts p) s = .next (s.answer p (some .qlot) (.good l.counts)) :=
  exec_answers rfl asks rfl (readQlotLot_counts nonzero) fun _ => by simp only [qlotCountsOwner, known]

theorem exec_qlotHolds {start : Nat} (range : start ≤ 63)
    (asks : s.Asks p .qlot (0x03 :: (be32 id ++ be 1 start))) :
    exec (.qlotHolds p) s = .next (s.answer p (some .qlot) (.good (be 1 l.holdCount ++ flag l.overflow
      ++ be 1 (s.holdPage id start).length ++ (s.holdPage id start).flatMap HoldRecord.bytes))) :=
  exec_answers rfl asks rfl (readQlotHolds_bytes nonzero range) fun _ => by simp only [qlotHoldsOwner, known]

end known

theorem exec_qlotList (asks : s.Asks p .qlot (0x04 :: be32 id)) :
    exec (.qlotList p) s = .next (s.answer p (some .qlot) (.good (be 2 s.lots.length
      ++ be 1 (s.lotPage id).length ++ (s.lotPage id).flatMap fun l => be32 l.id ++ be32 l.sequence))) :=
  exec_answers rfl asks rfl (readQlotList_bytes nonzero) fun _ => rfl

theorem not_asksForList : (!asksForList (be32 id)) = true := by
  rw [Bool.not_eq_true', Bool.eq_false_iff]
  exact fun list => nonzero ((asksForList_be32 id).1 list)

theorem exec_qeqp {i : Position} {e : Entry} (known : s.find id = some (i, e)) (asks : s.Asks p .qeqp (be32 id)) :
    exec (.qeqp p) s = .next (s.answer p (some .qeqp) (.good (e.bytes i))) :=
  exec_answers rfl asks (not_asksForList nonzero) (readQeqp_bytes id) fun _ => by simp only [qeqpOwner, known]

theorem exec_qeqp_absent (absent : s.find id = none) (asks : s.Asks p .qeqp (be32 id)) :
    exec (.qeqp p) s = .next (s.answer p (some .qeqp) (.check .unknownEquipment id)) :=
  exec_answers rfl asks (not_asksForList nonzero) (readQeqp_bytes id) fun _ => by simp only [qeqpOwner, absent]

end lots

theorem exec_qcel {s : State} {p : Port} {c : CellNo} (asks : s.Asks p .qcel (num1 c)) :
    exec (.qcel p) s = .next (s.answer p (some .qcel) (.good (s.cell c).bytes)) :=
  exec_answers rfl asks rfl (readCell_bytes c) fun _ => rfl

theorem exec_qeqpList {s : State} {p : Port} (asks : s.Asks p .qeqp (be32 0)) :
    exec (.qeqpList p) s = .next (s.answer p (some .qeqp)
      (.good (be 1 s.equipmentIds.length ++ s.equipmentIds.flatMap be32))) :=
  exec_answers rfl asks ((asksForList_be32 0).2 rfl) (readQeqp_bytes 0) fun _ => rfl

/-- Settles O32: each query's owner reads the records and answers their bytes. -/
theorem queriesReadRecords : Obligations.QueriesReadRecords := by
  unfold Obligations.QueriesReadRecords
  intro opt flagged degrees shipped
  have opt_eq : opt = optional := by
    funext size v
    cases v <;> rfl
  have shipped_eq : shipped = Shipment.bytes := rfl
  clear_value opt shipped
  subst opt_eq shipped_eq
  refine ⟨?_, ?_, ?_, ?_, ?_, ?_⟩
  · exact fun s p id nonzero absent => ⟨exec_qlotSummary_absent nonzero absent, exec_qlotCounts_absent nonzero absent,
      fun start range => exec_qlotHolds_absent nonzero absent range⟩
  · intro s p id l nonzero known
    refine ⟨fun asks => ⟨_, exec_qlotSummary nonzero known asks, ?_⟩,
      fun asks => ⟨_, exec_qlotCounts nonzero known asks, asks.good l.counts⟩,
      fun start range asks => ⟨_, exec_qlotHolds nonzero known range asks, asks.good _⟩⟩
    rw [Lot.summary, Lot.flagByte_eq, State.priorityOf, Option.map_map]
    exact asks.good _
  · intro s p start nonzero asks
    obtain ⟨only, good⟩ := asks.good (be 2 s.lots.length ++ be 1 (s.lotPage start).length
      ++ (s.lotPage start).flatMap fun l => be32 l.id ++ be32 l.sequence)
    exact ⟨_, _, exec_qlotList nonzero asks, only, sortBy_perm _ _,
      sortBy_ascending Lot.rank _, good⟩
  · intro s c asks
    refine ⟨_, exec_qcel asks, ?_⟩
    rw [Cell.bytes, Thermal.bytes, ← List.append_assoc, ← List.append_assoc]
    exact asks.good _
  · intro s id nonzero asks
    cases found : s.find id with
    | none =>
      obtain ⟨v, service⟩ := asks.service
      obtain ⟨only, check⟩ := refused_answer service (some .qeqp) .unknownEquipment id
      exact ⟨_, exec_qeqp_absent nonzero found asks, only, nofun, fun _ => check⟩
    | some known =>
      obtain ⟨i, e⟩ := known
      obtain ⟨only, good⟩ := asks.good (e.bytes i)
      refine ⟨_, exec_qeqp nonzero found asks, only, ?_, nofun⟩
      obtain ⟨-, rfl⟩ := State.find_entry found
      rintro i e ⟨⟩
      obtain ⟨id, port, state, age, membership, ability⟩ := e
      cases membership <;> cases ability <;> exact good
  · exact fun s asks => ⟨_, exec_qeqpList asks, asks.good _⟩

end Sys2Proof.Machine
end

section
/-! Payloads of the wrong shape or range are refused FIELD, with the frame offset of the lowest offending field (R9). -/

namespace Sys2Proof.Machine

/-! ## A request whose payload offends its format -/

section offended
variable {i : Instr} {s : State} {p : Port} {r : Req} {mine : List Byte → Bool} {payload : List Byte}
  (row : requestOf i = some (p, r, mine)) (fits : mine payload = true)
include row fits

/-- On a supervisor's port the refusal changes nothing but the answer. -/
theorem exec_offended (asks : s.Asks p r payload) : ∃ t, exec i s = .next t
    ∧ ∀ n, offence (r.format payload) 8 payload = some n →
      OnlyAnswered s t p ∧ AnsweredCheck s t p (some r) .field (BitVec.ofNat 32 n) := by
  obtain ⟨α, read, owner, runs, reads, -⟩ := exec_request row
  obtain ⟨v, service⟩ := asks.service
  refine ⟨_, runs s, fun n offends => ?_⟩
  have agrees := reads payload fits
  rw [offends] at agrees
  rw [State.request_error asks fits agrees.error]
  exact refused_answer service _ _ _

/-- On an equipment port the sender's entry is refreshed and its return reported (R24). -/
theorem exec_offended_sent {n : Nat} {id : Id} {j : Position} {e : Entry}
    (offends : offence (r.format payload) 8 payload = some n) (other : r ≠ .eann) (sends : s.Sends p r id payload j e) :
    exec i s = .next (((s.refresh j e p).reportReturn e.returnsTo id).answer p (some r)
      (.check .field (BitVec.ofNat 32 n))) := by
  obtain ⟨α, read, owner, runs, reads, -⟩ := exec_request row
  have agrees := reads payload fits
  rw [offends] at agrees
  rw [runs, State.request_sent_error sends other fits agrees.error]
  rfl

end offended

/-- EANN's payload is checked without a refresh of its sender's entry (R24, R25). -/
theorem State.checkSender_eann {α : Type} {s : State} {p : Port} {read : List Byte → Checked α} {owner : Owner α}
    {f : Frame} (source : f.source ≠ 0)
    (room : ∀ i e, s.find f.source = some (i, e) → e.port = p ∨ s.portCount p < 4) :
    s.checkSender p .eann read owner f = s.checkFields p .eann read owner f := by
  unfold State.checkSender
  rw [if_neg source]
  cases found : s.find f.source with
  | none => exact if_pos rfl
  | some known =>
    obtain ⟨i, e⟩ := known
    have notFull : ¬(e.port ≠ p ∧ Config.entriesPerPort ≤ s.portCount p) := by
      rintro ⟨elsewhere, full⟩
      rcases room i e found with same | below
      · exact elsewhere same
      · exact Nat.not_le.2 below full
    dsimp only
    rw [if_neg notFull, if_pos rfl]

theorem State.checkFields_error {α : Type} {s : State} {p : Port} {r : Req} {read : List Byte → Checked α}
    {owner : Owner α} {f : Frame} {n : Nat} (reads : read f.payload = .error n) :
    s.checkFields p r read owner f = s.refuse p r .field (arg n) := by
  rw [State.checkFields, reads]

/-- An EANN that offends its format changes nothing but the answer. -/
theorem exec_eann_offended {s : State} {p : Port} {payload : List Byte} {n : Nat} {id : Id}
    (offends : offence (Req.format .eann payload) 8 payload = some n) (speaks : s.Speaks p .eann id payload)
    (room : ∀ j e, s.find id = some (j, e) → e.port = p ∨ s.portCount p < 4) :
    exec (.eann p) s = .next (s.answer p (some .eann) (.check .field (BitVec.ofNat 32 n))) := by
  obtain ⟨quiet, loaded, equip, permitted, nonzero, v, service, taken, code, rfl, rfl⟩ := speaks
  have checked : s.startsUp v = false := by simp [State.startsUp, loaded, taken]
  have agrees := readEann_agrees v.frame.payload
  rw [offends] at agrees
  show Host.Outcome.next (s.request p .eann anyPayload readEann (eannOwner p)) = _
  rw [State.request_examines quiet service (.inl taken) code rfl, State.examine_equipment checked permitted equip,
    State.checkSender_eann nonzero room, State.checkFields_error agrees.error]
  rfl

/-! ## Offences of the short formats -/

/-- Any byte after a request that carries none. -/
theorem offence_nil (b : Byte) (rest : List Byte) : offence [] 8 (b :: rest) = some 8 := rfl

theorem offence_nonzero_short {payload : List Byte} (short : payload.length < 4) :
    offence [nonzero] 8 payload = some 8 :=
  if_neg fun all => Nat.not_le.2 short all.1

theorem offence_nonzero_zero {payload : List Byte} (zero : payload.take 4 = [0, 0, 0, 0]) :
    offence [nonzero] 8 payload = some 8 := by
  refine if_neg fun all => ?_
  have allowed := all.2
  change nonzero.allowed (ofBe (payload.take 4)) = true at allowed
  rw [zero] at allowed
  exact absurd allowed (by decide)

theorem ofBe_four_ne_zero {bytes : List Byte} (four : bytes.length = 4) (nonzero : bytes ≠ [0, 0, 0, 0]) :
    ofBe bytes ≠ 0 := by
  match bytes, four with
  | [a, b, c, d], _ =>
    intro zero
    have zeros : a.toNat = 0 ∧ b.toNat = 0 ∧ c.toNat = 0 ∧ d.toNat = 0 := by
      simp only [ofBe, List.foldl_cons, List.foldl_nil] at zero
      omega
    obtain ⟨ha, hb, hc, hd⟩ := zeros
    refine nonzero ?_
    rw [BitVec.eq_of_toNat_eq (y := 0) ha, BitVec.eq_of_toNat_eq (y := 0) hb, BitVec.eq_of_toNat_eq (y := 0) hc,
      BitVec.eq_of_toNat_eq (y := 0) hd]

theorem offence_nonzero_long {payload : List Byte} (long : 4 < payload.length) (id : payload.take 4 ≠ [0, 0, 0, 0]) :
    offence [nonzero] 8 payload = some 12 := by
  have four : (payload.take 4).length = 4 := by
    rw [List.length_take]
    omega
  have low := ofBe_four_ne_zero four id
  have high := ofBe_lt (payload.take 4)
  rw [four] at high
  have allowed : 4 ≤ payload.length ∧ nonzero.allowed (ofBe (payload.take 4)) = true :=
    ⟨long.le, decide_eq_true ⟨by omega, by omega⟩⟩
  refine (if_pos allowed).trans (if_neg fun nil => ?_)
  exact Nat.not_le.2 long (List.drop_eq_nil_iff.1 nil)

theorem offence_cell_missing : offence [between 1 0 15] 8 [] = some 8 := rfl

theorem offence_cell_high {b : Byte} (rest : List Byte) (high : 16 ≤ b.toNat) :
    offence [between 1 0 15] 8 (b :: rest) = some 8 := by
  simp [offence, between, ofBe, Nat.lt_iff_add_one_le, high]

theorem offence_cell_long {b : Byte} (c : Byte) (rest : List Byte) (cell : b.toNat < 16) :
    offence [between 1 0 15] 8 (b :: c :: rest) = some 9 := by
  have within : b.toNat ≤ 15 := by omega
  simp [offence, between, ofBe, within]

/-- Settles O10: each row's reader fails exactly where its format is offended, and the short formats' offences are
computed. -/
theorem payloadShapeChecked : Obligations.PayloadShapeChecked := by
  refine ⟨?_, ?_, ?_, ?_, ?_, ?_⟩
  · intro i s p b rest member r mine row asks
    have empty : r.format (b :: rest) = [] ∧ mine (b :: rest) = true := by
      rcases member with rfl | rfl | rfl | rfl | rfl | rfl | rfl <;> cases row <;> exact ⟨rfl, rfl⟩
    obtain ⟨t, runs, refused⟩ := exec_offended row empty.2 asks
    rw [empty.1] at refused
    exact ⟨t, runs, refused 8 (offence_nil b rest)⟩
  · intro i s p payload member r mine row asks
    have lot : r.format payload = [nonzero] ∧ mine payload = true := by
      rcases member with rfl | rfl | rfl | rfl <;> cases row <;> exact ⟨rfl, rfl⟩
    obtain ⟨t, runs, refused⟩ := exec_offended row lot.2 asks
    rw [lot.1] at refused
    exact ⟨t, runs, fun short => refused 8 (offence_nonzero_short short),
      fun zero => refused 8 (offence_nonzero_zero zero), fun long id => refused 12 (offence_nonzero_long long id)⟩
  · intro i s payload member r mine row asks
    have cell : r.format payload = [between 1 0 15] ∧ mine payload = true := by
      rcases member with rfl | rfl | rfl | rfl <;> cases row <;> exact ⟨rfl, rfl⟩
    obtain ⟨t, runs, refused⟩ := exec_offended row cell.2 asks
    rw [cell.1] at refused
    refine ⟨t, runs, ?_, ?_, ?_⟩
    · rintro rfl
      exact refused 8 offence_cell_missing
    · rintro b rest rfl high
      exact refused 8 (offence_cell_high rest high)
    · rintro b c rest rfl low
      exact refused 9 (offence_cell_long c rest low)
  · intro i s p r mine payload n row fits offends asks
    obtain ⟨t, runs, refused⟩ := exec_offended row fits asks
    exact ⟨t, runs, refused n offends⟩
  · intro i s p r mine payload n id j e row fits offends other sends
    exact exec_offended_sent row fits offends other sends
  · intro s p payload n id offends speaks room
    have runs := exec_eann_offended offends speaks room
    obtain ⟨-, -, -, -, -, inService⟩ := speaks
    obtain ⟨v, service⟩ := inService.service
    exact ⟨_, runs, refused_answer service _ _ _⟩

end Sys2Proof.Machine
end

section
/-! What a command's work on cells, lots, holds, shipments and notices leaves of the equipment table and the clock:
every entry stands as it stood, every cell names the members it named, and the clock counts on. -/

namespace Sys2Proof.Machine

-- one theorem at a time: many at once, each with a thread of its own, can exceed the memory limit
set_option Elab.async false

/-- What an entry of the equipment table is but for its ability record, whose kind stays: the parts that a request
other than EANN leaves once its sender is refreshed (R20, R24). -/
structure Standing where
  id         : Id
  port       : Port
  state      : EquipState
  age        : Nat
  membership : Option CellNo
  kind       : EquipKind

def Entry.standing (e : Entry) : Standing := ⟨e.id, e.port, e.state, e.age, e.membership, e.ability.kind⟩

/-- `y` names the members of `x`, and is VACANT only if `x` is. -/
structure Cell.SameMembers (x y : Cell) : Prop where
  handler : y.handler = x.handler
  tester  : y.tester = x.tester
  vacant  : y.state = .vacant → x.state = .vacant

/-- `t` has the equipment table of `s` but for ability records of the same kinds, the members of its cells, and its
seconds, period minute and period. -/
structure State.SameTable (s t : State) : Prop where
  entries : ∀ i, (t.entry i).map Entry.standing = (s.entry i).map Entry.standing
  cells   : ∀ c, (s.cell c).SameMembers (t.cell c)
  seconds : t.clock.seconds = s.clock.seconds
  minute  : t.clock.minute = s.clock.minute
  period  : t.tables.parameters.period = s.tables.parameters.period

theorem Cell.SameMembers.refl (x : Cell) : x.SameMembers x := ⟨rfl, rfl, id⟩

namespace State.SameTable

variable {r s t : State}

theorem refl (s : State) : s.SameTable s := ⟨fun _ => rfl, fun _ => .refl _, rfl, rfl, rfl⟩

theorem trans (h : r.SameTable s) (k : s.SameTable t) : r.SameTable t where
  entries i := (k.entries i).trans (h.entries i)
  cells c :=
    ⟨(k.cells c).handler.trans (h.cells c).handler, (k.cells c).tester.trans (h.cells c).tester,
      fun vacant => (h.cells c).vacant ((k.cells c).vacant vacant)⟩
  seconds := k.seconds.trans h.seconds
  minute := k.minute.trans h.minute
  period := k.period.trans h.period

/-- An entry of the one state stands in the other at the same position, but for its ability record. -/
theorem entry_of (h : s.SameTable t) {i : Position} {e : Entry} (at_i : t.entry i = some e) :
    ∃ f, s.entry i = some f ∧ f.standing = e.standing := by
  simpa [at_i, eq_comm] using h.entries i

theorem to_entry (h : s.SameTable t) {i : Position} {e : Entry} (at_i : s.entry i = some e) :
    ∃ f, t.entry i = some f ∧ f.standing = e.standing := by
  simpa [at_i] using h.entries i

/-! ## The updates of the records -/

/-- A change of other records leaves the table. -/
theorem of_records (h : r.SameTable s) (equipment : t.equipment = s.equipment := by rfl)
    (cells : t.cells = s.cells := by rfl) (seconds : t.clock.seconds = s.clock.seconds := by rfl)
    (minute : t.clock.minute = s.clock.minute := by rfl)
    (period : t.tables.parameters.period = s.tables.parameters.period := by rfl) : r.SameTable t := by
  refine h.trans ⟨fun i => ?_, fun c => ?_, seconds, minute, period⟩
  · rw [State.entry, equipment, State.entry]
  · rw [State.cell, State.cell, cells]
    exact .refl _

/-- Work at the ports leaves the table. -/
theorem of_onlyPorts (h : r.SameTable s) (ports : s.OnlyPorts t) : r.SameTable t := by
  rw [ports]
  exact h.of_records

theorem of_ite {c : Prop} [Decidable c] (h : r.SameTable s) (k : r.SameTable t) :
    r.SameTable (if c then s else t) := by
  split
  · exact h
  · exact k

theorem setCell (h : r.SameTable s) (c : CellNo) {x : Cell} (same : (s.cell c).SameMembers x) :
    r.SameTable (s.setCell c x) := by
  refine h.trans ⟨fun _ => rfl, fun d => ?_, rfl, rfl, rfl⟩
  by_cases at_c : d = c
  · subst at_c
    simpa using same
  · rw [State.setCell_cell_ne s x at_c]
    exact .refl _

theorem onCell (h : r.SameTable s) (c : CellNo) (f : Cell → Cell)
    (same : ∀ x : Cell, x.SameMembers (f x) := by exact fun _ => ⟨rfl, rfl, by simp⟩) : r.SameTable (s.onCell c f) :=
  h.setCell c (same _)

theorem moveCell (h : r.SameTable s) (c : CellNo) (f : Cell → Cell)
    (same : ∀ x : Cell, x.SameMembers (f x) := by exact fun _ => ⟨rfl, rfl, by simp⟩) : r.SameTable (s.moveCell c f) :=
  (h.onCell c f same).of_onlyPorts (State.onlyPorts_ncel _ c)

theorem onLot (h : r.SameTable s) (id : Id) (f : Lot → Lot) : r.SameTable (s.onLot id f) := h.of_records

theorem leaveQueue (h : r.SameTable s) (id : Id) : r.SameTable (s.leaveQueue id) := h.of_records

theorem joinQueue (h : r.SameTable s) (id : Id) : r.SameTable (s.joinQueue id) := by
  unfold State.joinQueue
  split
  · exact h.of_records
  · exact h

theorem recompute (h : r.SameTable s) : r.SameTable s.recompute := h.of_records

theorem notify (h : r.SameTable s) (p : Port) (n : Notice) : r.SameTable (s.notify p n) := h.of_records

theorem notifyMember (h : r.SameTable s) (m : Option Id) (n : Id → Notice) : r.SameTable (s.notifyMember m n) :=
  h.of_onlyPorts (s.onlyPorts_notifyMember m n)

theorem notifyMembers (h : r.SameTable s) (c : CellNo) (n : Id → Notice) : r.SameTable (s.notifyMembers c n) :=
  h.of_onlyPorts (s.onlyPorts_notifyMembers c n)

theorem nlot (h : r.SameTable s) (id : Id) (cause : Cause) (hold : Option (HoldKind × Nat) := none) :
    r.SameTable (s.nlot id cause hold) :=
  h.of_onlyPorts (s.onlyPorts_nlot id cause hold)

theorem answer (h : r.SameTable s) (p : Port) (q : Option Req) (reply : Reply) : r.SameTable (s.answer p q reply) :=
  h.of_records

/-! ## The release unit and the hold list (chapters 8 and 9) -/

theorem decideSample (h : r.SameTable s) (id : Id) : r.SameTable (s.decideSample id) := by
  unfold State.decideSample
  split
  · exact of_ite (of_ite ((h.onLot id _).nlot id _) (((h.onLot id _).notify qaPort _).nlot id _)) h
  · exact h

theorem attentionTest (h : r.SameTable s) : r.SameTable s.attentionTest :=
  of_ite (h.of_records (t := { s with armed := false }.notify _ _)) h

theorem withdraw (h : r.SameTable s) (id : Id) : r.SameTable (s.withdraw id) :=
  (h.of_records (t := (s.dropShipment id).onLot id _)).nlot id _

theorem stopRun (h : r.SameTable s) (c : CellNo) : r.SameTable (s.stopRun c) := by
  obtain e | ⟨_, -, -, u, ports, e⟩ := s.stopRun_cases c <;> rw [e]
  · exact h
  · exact (h.of_onlyPorts ports).moveCell c _

theorem firstHold (h : r.SameTable s) (id : Id) : r.SameTable (s.firstHold id) := by
  obtain e | e | ⟨c, e⟩ | e := s.firstHold_cases id <;> rw [e]
  · exact h
  · exact h.leaveQueue id
  · exact h.stopRun c
  · exact h.withdraw id

theorem appendHold (h : r.SameTable s) (x : HoldRecord) : r.SameTable (s.appendHold x) := by
  have appended := (h.of_records (t := { s with holds := s.holds ++ [x] }.onLot x.lot fun l =>
    { l with holdCount := l.holdCount + 1 })).nlot x.lot .holdPlaced (some (x.kind, x.arg))
  exact of_ite (appended.firstHold _) appended

theorem setOverflow (h : r.SameTable s) (id : Id) : r.SameTable (s.setOverflow id) := by
  obtain e | ⟨l, -, -, e | e⟩ := s.setOverflow_cases id <;> rw [e]
  · exact h
  · exact (h.onLot id _).nlot id _
  · exact ((h.onLot id _).nlot id _).firstHold id

theorem placeHold (h : r.SameTable s) (src : Option Port) (id : Id) (kind : HoldKind) (a d : Nat) :
    r.SameTable (s.placeHold src id kind a d) := by
  obtain e | ⟨-, -, e⟩ | ⟨l, -, -, -, e⟩ := s.placeHold_cases src id kind a d <;> rw [e]
  · exact h
  · exact h.setOverflow id
  · exact h.appendHold _

/-- What every item of a list keeps, all of them one after another keep. -/
theorem foldl {α : Type} {f : State → α → State} (keeps : ∀ u a, r.SameTable u → r.SameTable (f u a))
    (as : List α) (h : r.SameTable s) : r.SameTable (as.foldl f s) := by
  induction as generalizing s with
  | nil => exact h
  | cons a as ih => exact ih (keeps s a h)

theorem checkYield (h : r.SameTable s) (src : Option Port) (id : Id) : r.SameTable (s.checkYield src id) := by
  unfold State.checkYield
  split
  · exact h
  · split
    · exact of_ite (h.placeHold _ _ _ _ _) h
    · exact h

theorem checkBin (h : r.SameTable s) (src : Option Port) (id : Id) (b : Fin 16) :
    r.SameTable (State.checkBin src id s b) := by
  unfold State.checkBin
  split
  · exact h
  · dsimp only
    split
    · exact of_ite (h.placeHold _ _ _ _ _) h
    · exact h

theorem checkRatios (h : r.SameTable s) (src : Option Port) (id : Id) : r.SameTable (s.checkRatios src id) :=
  (h.checkYield src id).foldl (fun _ b u => u.checkBin src id b) _

/-! ## Runs, preparations and bindings (chapters 5 and 6) -/

theorem lotTested (h : r.SameTable s) (src : Option Port) (c : CellNo) (id : Id) :
    r.SameTable (s.lotTested src c id) :=
  (((((h.onLot id _).nlot id _).onCell c _).checkRatios src id).decideSample id).moveCell c _

theorem openRun (h : r.SameTable s) (src : Option Port) (c : CellNo) (l : Lot) : r.SameTable (s.openRun src c l) :=
  of_ite ((h.placeHold _ _ _ _ _).moveCell c _) (((h.onLot _ _).moveCell c _).notifyMembers c _)

theorem goOn (h : r.SameTable s) (src : Option Port) (c : CellNo) : r.SameTable (s.goOn src c) := by
  unfold State.goOn
  split
  · exact h
  · exact of_ite (h.openRun src c _) (of_ite ((h.onLot _ _).openRun src c _) ((h.onLot _ _).lotTested src c _))

theorem buildProgram (h : r.SameTable s) (c : CellNo) (p : Product) : r.SameTable (s.buildProgram c p).1 := by
  unfold State.buildProgram
  split
  · exact h
  · dsimp only
    exact (h.notifyMember _ _).onCell c _

theorem buildThermal (h : r.SameTable s) (c : CellNo) (p : Product) : r.SameTable (s.buildThermal c p).1 := by
  unfold State.buildThermal
  dsimp only
  split
  · split
    · split <;> exact h
    · exact h
  · dsimp only
    exact (h.notifyMember _ _).onCell c _

theorem testPreparation (h : r.SameTable s) (src : Option Port) (c : CellNo) :
    r.SameTable (s.testPreparation src c) := by
  unfold State.testPreparation
  split
  · split
    · dsimp only
      split
      · exact of_ite ((h.onCell c _).goOn src c) ((h.onCell c _).moveCell c _)
      · exact h.onCell c _
    · exact h
  · exact h

theorem prepare (h : r.SameTable s) (src : Option Port) (c : CellNo) : r.SameTable (s.prepare src c) := by
  unfold State.prepare
  split
  · exact h
  · exact (((h.buildProgram c _).buildThermal c _).moveCell c _).testPreparation src c

theorem bind (h : r.SameTable s) (src : Option Port) (id : Id) (c : CellNo) : r.SameTable (s.bind src id c) :=
  ((((h.leaveQueue id).onLot id _).nlot id _).onCell c _).prepare src c

theorem serve (h : r.SameTable s) (src : Option Port) (c : CellNo) : r.SameTable (s.serve src c) :=
  State.serve_keeps r.SameTable (fun _ id _ u => u.bind src id c) h

theorem offer (h : r.SameTable s) (src : Option Port) (id : Id) : r.SameTable (s.offer src id) :=
  State.offer_keeps r.SameTable (fun _ k c u => u.bind src k c) h

theorem joinAndOffer (h : r.SameTable s) (src : Option Port) (id : Id) : r.SameTable (s.joinAndOffer src id) :=
  (h.joinQueue id).offer src id

/-- An unbinding leaves the table as it is once the cell has the state its event gives it. -/
theorem unbind_of_cell (src : Option Port) (c : CellNo) (id : Id) (f : Cell → Cell)
    (h : r.SameTable (s.setCell c (f { s.cell c with bound := none }))) : r.SameTable (s.unbind src c id f) := by
  have unbound : r.SameTable (((s.onLot id fun l => { l with cell := none, state := .waiting }).nlot id
      .unbound).moveCell c fun x => f { x with bound := none }) := by
    have ports := State.onlyPorts_nlot (s.onLot id fun l => { l with cell := none, state := .waiting }) id .unbound none
    rw [ports, State.moveCell_eq]
    exact h.of_records
  have served {p : Prop} [Decidable p] := (of_ite (c := p) (unbound.joinQueue id) unbound).serve src c
  exact of_ite (served.offer src id) served

theorem unbind (h : r.SameTable s) (src : Option Port) (c : CellNo) (id : Id) (f : Cell → Cell)
    (same : ∀ x : Cell, x.SameMembers (f { x with bound := none }) := by exact fun _ => ⟨rfl, rfl, by simp⟩) :
    r.SameTable (s.unbind src c id f) :=
  unbind_of_cell src c id f (h.setCell c (same _))

theorem serveIdle (h : r.SameTable s) (src : Option Port) : r.SameTable (s.serveIdle src) :=
  h.foldl (fun _ c u => u.serve src c) _

theorem placeCloseHold (h : r.SameTable s) (src : Option Port) (id : Id) (hold : CloseHold) :
    r.SameTable (s.placeCloseHold src id hold) := by
  unfold State.placeCloseHold
  split
  · exact h.placeHold _ _ _ _ _
  · exact h

theorem afterClose (h : r.SameTable s) (src : Option Port) (c : CellNo) (id : Id) :
    r.SameTable (s.afterClose src c id) := by
  unfold State.afterClose
  split
  · exact h
  · have completed {p : Prop} [Decidable p] {f : Lot → Lot} := of_ite (c := p) h (h.onLot id f)
    exact of_ite (completed.lotTested src c id) (of_ite (completed.openRun src c _) (completed.moveCell c _))

theorem closeRun (h : r.SameTable s) (src : Option Port) (c : CellNo) (hold : CloseHold) (reason : EndReason) :
    r.SameTable (s.closeRun src c hold reason) := by
  unfold State.closeRun
  split
  · exact h
  · exact ((((h.onCell c _).placeCloseHold src _ hold).placeCloseHold src _ _).afterClose src c _).serve src c

theorem evaluateEnd (h : r.SameTable s) (src : Option Port) (c : CellNo) (x : Run) (count : Nat)
    (reason : EndReason) : r.SameTable (s.evaluateEnd src c x count reason).1 := by
  unfold State.evaluateEnd
  dsimp only
  split
  · exact (h.onCell c _).moveCell c _
  · exact (h.onCell c _).closeRun src c _ _

theorem testClose (h : r.SameTable s) (src : Option Port) (c : CellNo) : r.SameTable (s.testClose src c) := by
  unfold State.testClose
  split
  · split
    · exact of_ite (h.closeRun src c _ _) h
    · exact h
  · exact h

theorem closeExpired (h : r.SameTable s) (src : Option Port) (c : CellNo) : r.SameTable (s.closeExpired src c) := by
  unfold State.closeExpired
  split
  · split
    · exact h.closeRun src c _ _
    · exact h
  · exact h

theorem loadFailed (h : r.SameTable s) (src : Option Port) (c : CellNo) : r.SameTable (s.loadFailed src c) := by
  unfold State.loadFailed
  split
  · exact h
  · exact (h.onCell c _).unbind src c _ _

theorem settleFailed (h : r.SameTable s) (src : Option Port) (c : CellNo) : r.SameTable (s.settleFailed src c) := by
  unfold State.settleFailed
  split
  · exact h
  · exact (h.onCell c _).unbind src c _ _

theorem becomeUnheld (h : r.SameTable s) (src : Option Port) (id : Id) : r.SameTable (s.becomeUnheld src id) := by
  unfold State.becomeUnheld
  split
  · exact h
  · split
    · exact h.joinAndOffer src id
    · split
      · exact of_ite ((h.goOn src _).serve src _) h
      · exact h
    · exact h.decideSample id
    · exact of_ite h (h.placeHold _ _ _ _ _)
    all_goals exact h

/-! ## Negotiation, formation and disturbances (chapter 3) -/

theorem query (h : r.SameTable s) (c : CellNo) (m : Option Id) : r.SameTable (s.query c m) := h.notifyMember _ _

/-- Entering OFFER leaves the table as it is once the cell is in OFFER. -/
theorem enterOffer_of_cell (c : CellNo) (handler tester : Bool)
    (h : r.SameTable (s.onCell c fun x =>
      { x with
        state := .offer, fault := none,
        negotiation := some (Negotiation.fresh handler tester s.tables.parameters.negotiation) })) :
    r.SameTable (s.enterOffer c handler tester) := by
  have offered := h.of_onlyPorts (State.onlyPorts_ncel _ c)
  have asked (m : Option Id) := of_ite (c := handler = true) offered (offered.query c m)
  exact of_ite (asked _) ((asked _).query c _)

theorem enterOffer (h : r.SameTable s) (c : CellNo) (handler tester : Bool := false) :
    r.SameTable (s.enterOffer c handler tester) :=
  enterOffer_of_cell c handler tester (h.onCell c _)

theorem enterFault (h : r.SameTable s) (c : CellNo) (reason : FaultReason) : r.SameTable (s.enterFault c reason) :=
  h.moveCell c _

theorem confirm (h : r.SameTable s) (c : CellNo) (m : Option Id) (cap : Capability) :
    r.SameTable (s.confirm c m cap) := h.notifyMember _ _

theorem reported (h : r.SameTable s) (c : CellNo) : r.SameTable (s.reported c) := by
  unfold State.reported
  split
  · exact of_ite (h.enterFault c _) ((h.moveCell c _).notifyMembers c _)
  · exact h

theorem formed (h : r.SameTable s) (src : Option Port) (c : CellNo) (cap : Capability) :
    r.SameTable (s.formed src c cap) := by
  have formed := h.onCell c fun x =>
    { x with
      common := some cap, active := cap.sites, thermal := Thermal.clear, failed := none, negotiation := none }
  unfold State.formed
  dsimp only
  split
  · exact (formed.moveCell c _).serve src c
  · exact of_ite ((formed.prepare src c).serve src c) (formed.unbind src c _ _)

theorem enterLost (h : r.SameTable s) (c : CellNo) : r.SameTable (s.enterLost c) := h.moveCell c _

theorem disturbMove (h : r.SameTable s) (c : CellNo) (d : Disturbance) : r.SameTable (s.disturbMove c d) := by
  cases d with
  | stale => exact h.enterLost c
  | reannounce => exact of_ite (h.enterLost c) (h.enterOffer c)

theorem disturb (h : r.SameTable s) (src : Option Port) (c : CellNo) (d : Disturbance) :
    r.SameTable (s.disturb src c d) := by
  unfold State.disturb
  split
  · exact h
  · dsimp only
    split
    · exact ((h.onCell c _).disturbMove c d).placeHold _ _ _ _ _
    · exact (h.onCell c _).disturbMove c d

theorem memberReturn (h : r.SameTable s) (c : CellNo) (id : Id) : r.SameTable (s.memberReturn c id) := by
  unfold State.memberReturn
  dsimp only
  split
  · exact of_ite (h.enterOffer c) h
  · exact of_ite h (h.query c _)
  · split
    · exact h
    · split
      · exact h.confirm c _ _
      · exact h
  · exact h

theorem reportReturn (h : r.SameTable s) (c : Option CellNo) (id : Id) : r.SameTable (s.reportReturn c id) := by
  cases c with
  | none => exact h
  | some c => exact h.memberReturn c id

/-! ## Gates (chapter 10) -/

theorem evaluateGates (h : r.SameTable s) (src : Option Port) : r.SameTable (s.evaluateGates src) := by
  have recorded (d e : GateState) := h.of_records
    (t := { s with clock := { s.clock with dispatchGate := d, releaseGate := e } })
  have delivered (d e was now : GateState) : r.SameTable (State.deliverDispatch
      { s with clock := { s.clock with dispatchGate := d, releaseGate := e } } src was now) :=
    of_ite ((recorded d e).serveIdle src) (recorded d e)
  have offered (u : State) (h : r.SameTable u) (o : OfferState) : r.SameTable (u.offerAll o) := h.of_records
  exact of_ite (offered _ (delivered ..) _).attentionTest (of_ite (offered _ (delivered ..) _) (delivered ..))

theorem endSoak (h : r.SameTable s) (c : CellNo) : r.SameTable (s.endSoak c) :=
  of_ite (((h.onCell c _).testPreparation none c).serve none c) h

end State.SameTable

end Sys2Proof.Machine
end

section
/-! What the owners of the requests leave of the equipment table: of the requests only EANN, CDCK, CUND, CLKS and WPAR
change more of the table or the clock than the ability record of an entry. -/

namespace Sys2Proof.Machine

-- one theorem at a time: many at once, each with a thread of its own, can exceed the memory limit
set_option Elab.async false

namespace State.SameTable

variable {r s : State}

/-! ## Ability records -/

theorem setEntry (h : r.SameTable s) {i : Position} {e f : Entry} (at_i : s.entry i = some e)
    (same : f.standing = e.standing) : r.SameTable (s.setEntry i (some f)) := by
  refine h.trans ⟨fun j => ?_, fun _ => .refl _, rfl, rfl, rfl⟩
  by_cases at_j : j = i
  · subst at_j
    simp [at_i, same]
  · rw [State.setEntry_entry_ne s _ at_j]

theorem onEquip (h : r.SameTable s) {id : Id} {f : Entry → Entry}
    (same : ∀ e, s.equip id = some e → (f e).standing = e.standing) : r.SameTable (s.onEquip id f) := by
  cases found : s.find id with
  | none => simpa [State.onEquip, found] using h
  | some ie =>
    obtain ⟨i, e⟩ := ie
    rw [State.onEquip_of_find f found]
    exact h.setEntry (State.find_entry found).1 (same e (State.equip_of_find found))

/-- An ability record of the entry's kind replaces the entry's (R39). -/
theorem setAbility (h : r.SameTable s) {id : Id} {a : Ability}
    (kind : (s.equip id).map (fun e => e.ability.kind) = some a.kind) : r.SameTable (s.setAbility id a) := by
  refine h.onEquip fun e known => ?_
  have same : e.ability.kind = a.kind := by simpa [known] using kind
  simp [Entry.standing, same]

/-! ## Work of the owners -/

theorem freeLot (h : r.SameTable s) (l : Lot) (cause : Cause) : r.SameTable (s.freeLot l cause) := h.of_records

theorem dispose (h : r.SameTable s) (id : Id) (d : Disposition) : r.SameTable (s.dispose id d) := by
  cases d with
  | none => exact h
  | accept => exact (h.onLot id _).nlot id _
  | resample => exact (h.onLot id _).nlot id _

/-- The program that a tester reports loaded goes into its ability record (R95). -/
theorem programLoaded (h : r.SameTable s) (src : Option Port) (c : CellNo) (id program : Id) :
    r.SameTable (s.programLoaded src c id program) := by
  have loaded := (h.onEquip (id := id) (f := fun e =>
    { e with ability := match e.ability with
      | .tester a => .tester { a with program := program }
      | .handler a => .handler a }) (by
        intro e _
        cases ability : e.ability <;> simp [Entry.standing, ability, Ability.kind])).onCell c fun x =>
          { x with loadRequest := none }
  exact of_ite (((loaded.onCell c _).testPreparation src c).serve src c) loaded

theorem programRefused (h : r.SameTable s) (src : Option Port) (c : CellNo) : r.SameTable (s.programRefused src c) :=
  of_ite ((h.onCell c _).loadFailed src c) (h.onCell c _)

theorem temperatureReached (h : r.SameTable s) (src : Option Port) (c : CellNo) :
    r.SameTable (s.temperatureReached src c) := by
  have reached := h.onCell c fun x => { x with thermal := { x.thermal with reached := true, soak := 0 } }
  unfold State.temperatureReached
  dsimp only
  split
  · exact of_ite (((reached.onCell c _).testPreparation src c).serve src c) reached
  · exact reached

theorem removeSite (h : r.SameTable s) (src : Option Port) (c : CellNo) (id : Id) (x : Run) (site : Fin 8)
    (top : Nat) : r.SameTable (s.removeSite src c id x site top) :=
  of_ite (((h.onCell c _).notifyMembers c _).placeHold _ _ _ _ _) ((h.onCell c _).notifyMembers c _)

theorem checkSites (h : r.SameTable s) (src : Option Port) (c : CellNo) (id : Id) :
    r.SameTable (s.checkSites src c id) := by
  unfold State.checkSites
  split
  · split
    · split
      · exact h.removeSite _ _ _ _ _ _
      · exact h
    · exact h
  · exact h

theorem runningChecks (h : r.SameTable s) (src : Option Port) (id : Id) : r.SameTable (s.runningChecks src id) := by
  unfold State.runningChecks
  split
  · exact of_ite (h.checkRatios _ _) h
  · exact h

theorem checkExcess (h : r.SameTable s) (src : Option Port) (id : Id) (before after : Nat) :
    r.SameTable (s.checkExcess src id before after) :=
  of_ite (h.placeHold _ _ _ _ _) h

theorem applyResults (h : r.SameTable s) (src : Option Port) (c : CellNo) (l : Lot) (x : Run)
    (es : List BinEntry) : r.SameTable (s.applyResults src c l x es).1 :=
  (((((h.onLot l.id _).onCell c _).checkExcess _ _ _ _).runningChecks _ _).checkSites _ _ _).testClose src c

theorem judgeSample (h : r.SameTable s) (l : Lot) (n : Nat) : r.SameTable (s.judgeSample l n).1 := by
  unfold State.judgeSample
  dsimp only
  split
  · exact ((h.onLot _ _).onLot _ _).nlot _ _
  · exact (h.onLot _ _).placeHold _ _ _ _ _

theorem retire (h : r.SameTable s) (id : Id) : r.SameTable (s.retire id) := by
  unfold State.retire
  split
  · exact h.freeLot _ _
  · exact h

theorem enterLot (h : r.SameTable s) (src : Option Port) (l : Lot) : r.SameTable (s.enterLot src l) := by
  have entered := (h.of_records (t := { s with lots := s.lots ++ [l], sequence := nextSequence s.sequence })).nlot
    l.id .entered
  exact of_ite ((entered.checkRatios _ _).decideSample _) (entered.joinAndOffer _ _)

/-- Two outcomes of a test. -/
theorem of_outcomes {c : Prop} [Decidable c] {x y : State × Reply} (h : r.SameTable x.1) (k : r.SameTable y.1) :
    r.SameTable (if c then x else y).1 := by
  split
  · exact h
  · exact k

end State.SameTable

/-! ## The owners -/

open State (SameTable)

/-- The owner changes of the table ability records only, and of the clock nothing. -/
def LeavesTable {α : Type} (owner : Owner α) : Prop :=
  ∀ (f : Frame) (a : α) (s : State), s.SameTable (owner f a s).1

theorem lentConfigured_leavesTable : LeavesTable lentConfigured := fun _ _ s =>
  have h := SameTable.refl s
  .of_outcomes h (.of_outcomes h (.of_outcomes h (.of_outcomes h (h.enterLot _ _))))

theorem afterReattempt_leavesTable {α : Type} {owner : Owner α} (leaves : LeavesTable owner) :
    LeavesTable (afterReattempt owner) :=
  fun f a s => .of_outcomes (SameTable.refl s).of_records (leaves f a s)

theorem lremOwner_leavesTable : LeavesTable lremOwner := by
  intro f id s
  have h := SameTable.refl s
  unfold lremOwner
  split
  · exact h
  · exact .of_outcomes h (h.freeLot _ _)

theorem lpriOwner_leavesTable : LeavesTable lpriOwner := by
  intro f a s
  have h := SameTable.refl s
  unfold lpriOwner
  split
  · exact h
  · have changed := h.onLot a.1 fun l => { l with basePriority := a.2 }
    exact .of_ite ((changed.of_records (t := State.recomputeLot _ a.1)).offer _ _) changed

theorem lshtOwner_leavesTable : LeavesTable lshtOwner := by
  intro f id s
  have h := SameTable.refl s
  unfold lshtOwner
  split
  · exact h
  · refine .of_outcomes h ?_
    dsimp only
    split
    · exact h.onLot _ _
    · exact (((((h.onLot _ _).onLot _ _).leaveQueue _).nlot _ _).checkRatios _ _).decideSample _

theorem qlotSummaryOwner_leavesTable : LeavesTable qlotSummaryOwner := by
  intro f id s
  unfold qlotSummaryOwner
  split <;> exact .refl s

theorem qlotCountsOwner_leavesTable : LeavesTable qlotCountsOwner := by
  intro f id s
  unfold qlotCountsOwner
  split <;> exact .refl s

theorem qlotHoldsOwner_leavesTable : LeavesTable qlotHoldsOwner := by
  intro f a s
  unfold qlotHoldsOwner
  split <;> exact .refl s

theorem qlotListOwner_leavesTable : LeavesTable qlotListOwner := fun _ _ s => .refl s

theorem holdOwner_leavesTable (p : Port) : LeavesTable (holdOwner p) := by
  intro f a s
  have h := SameTable.refl s
  unfold holdOwner
  dsimp only
  split
  · exact h
  · exact .of_outcomes h (.of_outcomes h (h.appendHold _))

theorem hclrOwner_leavesTable (p : Port) : LeavesTable (hclrOwner p) := by
  intro f a s
  have h := SameTable.refl s
  unfold hclrOwner
  split
  · exact h
  · have disposed := ((h.of_records (t := s.removeHold a.lot a.kind a.arg)).nlot a.lot .holdCleared
      (some (a.kind, a.arg))).dispose a.lot a.disposition
    exact .of_outcomes h (.of_outcomes h (.of_outcomes h (.of_ite (disposed.becomeUnheld _ _) disposed)))

theorem hovcOwner_leavesTable : LeavesTable hovcOwner := by
  intro f id s
  have h := SameTable.refl s
  unfold hovcOwner
  split
  · exact h
  · have cleared := (h.onLot id fun l => { l with overflow := false }).nlot id .overflowCleared
    exact .of_outcomes h (.of_ite (cleared.becomeUnheld _ _) cleared)

theorem crdkOwner_leavesTable : LeavesTable crdkOwner := by
  intro f c s
  have h := SameTable.refl s
  refine .of_outcomes h ?_
  split
  · exact h.enterOffer c
  · exact h.enterOffer c
  · exact h

theorem cmodOwner_leavesTable : LeavesTable cmodOwner := fun _ _ s =>
  have h := SameTable.refl s
  .of_outcomes h (.of_outcomes h (.of_outcomes h ((h.moveCell _ _).serve _ _)))

theorem csenOwner_leavesTable : LeavesTable csenOwner := fun _ _ s =>
  have h := SameTable.refl s
  .of_outcomes h (.of_outcomes h (.of_outcomes h ((h.onCell _ _).serve _ _)))

theorem qcelOwner_leavesTable : LeavesTable qcelOwner := fun _ _ s => .refl s

theorem cunbOwner_leavesTable : LeavesTable cunbOwner := by
  intro f c s
  have h := SameTable.refl s
  have unbound (id : Id) := (h.onCell c fun x => { x with preparation := none }).unbind (some hostPort) c id fun x =>
    { x with state := .idle }
  refine .of_outcomes h ?_
  dsimp only
  split
  · exact unbound _
  · exact unbound _
  · exact h

theorem qeqpOwner_leavesTable : LeavesTable qeqpOwner := by
  intro f id s
  unfold qeqpOwner
  split <;> exact .refl s

theorem qeqpListOwner_leavesTable : LeavesTable qeqpListOwner := fun _ _ s => .refl s

theorem eablOwner_leavesTable : LeavesTable eablOwner := by
  intro f a s
  have h := SameTable.refl s
  refine .of_outcomes h ?_
  dsimp only
  split
  · exact h
  · rename_i kind
    have replaced := h.setAbility (not_not.mp kind)
    split
    · have marked := replaced.onCell a.1 fun x =>
        { x with negotiation := some (Negotiation.report ‹_› (decide ((s.cell a.1).handler = some f.source))) }
      exact .of_ite (marked.reported _) marked
    · exact replaced.enterOffer _ _ _
    · exact h

theorem ecnfOwner_leavesTable (p : Port) : LeavesTable (ecnfOwner p) := by
  intro f a s
  have h := SameTable.refl s
  refine .of_outcomes h ?_
  dsimp only
  split
  · refine .of_outcomes (h.enterFault _ _) ?_
    have marked := h.onCell a.1 fun x =>
      { x with negotiation := some (Negotiation.accept ‹_› (decide ((s.cell a.1).handler = some f.source))) }
    exact .of_ite (marked.formed _ _ _) marked
  · exact h

theorem epldOwner_leavesTable (p : Port) : LeavesTable (epldOwner p) := by
  intro f a s
  have h := SameTable.refl s
  unfold epldOwner
  dsimp only
  split
  · exact h
  · exact h
  · exact .of_ite (h.programLoaded _ _ _ _) (h.programRefused _ _)

theorem eldfOwner_leavesTable (p : Port) : LeavesTable (eldfOwner p) := by
  intro f a s
  have h := SameTable.refl s
  unfold eldfOwner
  dsimp only
  split
  · exact h
  · exact .of_outcomes (h.programRefused _ _) h

theorem etmpOwner_leavesTable (p : Port) : LeavesTable (etmpOwner p) := by
  intro f a s
  have h := SameTable.refl s
  unfold etmpOwner
  dsimp only
  split
  · exact h
  · exact .of_outcomes h (.of_ite h (h.temperatureReached _ _))

theorem erndOwner_leavesTable (p : Port) : LeavesTable (erndOwner p) := by
  intro f a s
  have h := SameTable.refl s
  unfold erndOwner
  split
  · exact h
  · exact h
  · exact .of_outcomes h (.of_outcomes h (.of_outcomes h (h.evaluateEnd _ _ _ _ _)))

theorem ebinOwner_leavesTable (p : Port) : LeavesTable (ebinOwner p) := by
  intro f a s
  have h := SameTable.refl s
  unfold ebinOwner
  split
  · exact h
  · split
    · exact h
    · refine .of_outcomes h ?_
      split
      · exact h
      · refine .of_outcomes h ?_
        split
        · exact h
        · exact h.applyResults _ _ _ _ _

theorem qresOwner_leavesTable : LeavesTable qresOwner := by
  intro f a s
  have h := SameTable.refl s
  unfold qresOwner
  dsimp only
  split
  · exact h
  · exact .of_outcomes h (.of_outcomes h (.of_outcomes h (h.judgeSample _ _)))

theorem rlseOwner_leavesTable : LeavesTable rlseOwner := by
  intro f id s
  have h := SameTable.refl s
  unfold rlseOwner
  split
  · exact h
  · rename_i l _
    have released := ((h.of_records (t := { s with shipments := s.shipments ++ [s.shipmentOf l] })).onLot id fun l =>
      { l with state := .released }).nlot id .released
    exact .of_outcomes h (.of_outcomes h (.of_outcomes h (.of_ite released.attentionTest released)))

theorem stakOwner_leavesTable : LeavesTable stakOwner := by
  intro f _ s
  unfold stakOwner
  split
  · exact ((SameTable.refl s).of_records (t := s.dropShipment _)).retire _
  · exact .refl s

theorem sarmOwner_leavesTable : LeavesTable sarmOwner := fun _ _ s =>
  ((SameTable.refl s).of_records (t := { s with armed := true })).attentionTest

theorem wprdOwner_leavesTable : LeavesTable wprdOwner := fun _ _ s =>
  have h := SameTable.refl s
  .of_outcomes h (.of_outcomes h h.of_records)

theorem wbplOwner_leavesTable : LeavesTable wbplOwner := by
  intro f a s
  have h := SameTable.refl s
  refine .of_outcomes h ?_
  dsimp only
  split
  · exact h
  · exact h.of_records

theorem wwinOwner_leavesTable : LeavesTable wwinOwner := by
  intro f a s
  have h := SameTable.refl s
  have replaced := h.of_records
    (t := { s with tables := { s.tables with windows := s.tables.windows.set a.1 a.2 } })
  exact .of_outcomes h (.of_outcomes h (replaced.evaluateGates _))

theorem crdyOwner_leavesTable : LeavesTable crdyOwner := by
  intro f _ s
  unfold crdyOwner
  split
  · exact .refl s
  · exact (SameTable.refl s).of_records

theorem csavOwner_leavesTable : LeavesTable csavOwner := fun _ _ s =>
  have h := SameTable.refl s
  .of_outcomes h.of_records h

theorem frstOwner_leavesTable : LeavesTable frstOwner := fun _ _ s => .refl s

theorem sensOwner_leavesTable (p : Port) : LeavesTable (sensOwner p) := fun _ _ s => .refl s

theorem pstaOwner_leavesTable (p : Port) : LeavesTable (pstaOwner p) := fun _ _ s => (SameTable.refl s).of_records

/-- The requests whose owners change more of the table or of the clock than ability records (R25, R26, R37, R52, R174,
R189). -/
def Req.changesTable : Req → Bool
  | .eann | .cdck | .cund | .clks | .wpar => true
  | _ => false

/-- A row of another request examines the request in service with an owner that leaves the table. -/
theorem exec_request_leavesTable {i : Instr} {p : Port} {r : Req} {mine : List Byte → Bool}
    (row : requestOf i = some (p, r, mine)) (other : r.changesTable = false) :
    ∃ (α : Type) (read : List Byte → Checked α) (owner : Owner α),
      (∀ s, exec i s = .next (s.request p r mine read owner)) ∧ LeavesTable owner := by
  cases i with
  | eann _ | cdck _ | cund _ | clks _ | wpar _ => cases row; cases other
  | lent _ => cases row; exact ⟨_, _, _, fun _ => rfl, afterReattempt_leavesTable lentConfigured_leavesTable⟩
  | lrem _ => cases row; exact ⟨_, _, _, fun _ => rfl, lremOwner_leavesTable⟩
  | lpri _ => cases row; exact ⟨_, _, _, fun _ => rfl, lpriOwner_leavesTable⟩
  | lsht _ => cases row; exact ⟨_, _, _, fun _ => rfl, lshtOwner_leavesTable⟩
  | qlotSummary _ => cases row; exact ⟨_, _, _, fun _ => rfl, qlotSummaryOwner_leavesTable⟩
  | qlotCounts _ => cases row; exact ⟨_, _, _, fun _ => rfl, qlotCountsOwner_leavesTable⟩
  | qlotHolds _ => cases row; exact ⟨_, _, _, fun _ => rfl, qlotHoldsOwner_leavesTable⟩
  | qlotList _ => cases row; exact ⟨_, _, _, fun _ => rfl, qlotListOwner_leavesTable⟩
  | hold _ => cases row; exact ⟨_, _, _, fun _ => rfl, holdOwner_leavesTable _⟩
  | hclr _ => cases row; exact ⟨_, _, _, fun _ => rfl, hclrOwner_leavesTable _⟩
  | hovc _ => cases row; exact ⟨_, _, _, fun _ => rfl, hovcOwner_leavesTable⟩
  | crdk _ => cases row; exact ⟨_, _, _, fun _ => rfl, crdkOwner_leavesTable⟩
  | cmod _ => cases row; exact ⟨_, _, _, fun _ => rfl, cmodOwner_leavesTable⟩
  | csen _ => cases row; exact ⟨_, _, _, fun _ => rfl, csenOwner_leavesTable⟩
  | qcel _ => cases row; exact ⟨_, _, _, fun _ => rfl, qcelOwner_leavesTable⟩
  | cunb _ => cases row; exact ⟨_, _, _, fun _ => rfl, cunbOwner_leavesTable⟩
  | qeqp _ => cases row; exact ⟨_, _, _, fun _ => rfl, qeqpOwner_leavesTable⟩
  | qeqpList _ => cases row; exact ⟨_, _, _, fun _ => rfl, qeqpListOwner_leavesTable⟩
  | stak _ => cases row; exact ⟨_, _, _, fun _ => rfl, stakOwner_leavesTable⟩
  | sarm _ => cases row; exact ⟨_, _, _, fun _ => rfl, sarmOwner_leavesTable⟩
  | qres _ => cases row; exact ⟨_, _, _, fun _ => rfl, qresOwner_leavesTable⟩
  | rlse _ => cases row; exact ⟨_, _, _, fun _ => rfl, rlseOwner_leavesTable⟩
  | wprd _ => cases row; exact ⟨_, _, _, fun _ => rfl, wprdOwner_leavesTable⟩
  | wbpl _ => cases row; exact ⟨_, _, _, fun _ => rfl, wbplOwner_leavesTable⟩
  | wwin _ => cases row; exact ⟨_, _, _, fun _ => rfl, wwinOwner_leavesTable⟩
  | crdy _ => cases row; exact ⟨_, _, _, fun _ => rfl, crdyOwner_leavesTable⟩
  | csav _ => cases row; exact ⟨_, _, _, fun _ => rfl, csavOwner_leavesTable⟩
  | frst _ => cases row; exact ⟨_, _, _, fun _ => rfl, frstOwner_leavesTable⟩
  | eabl _ => cases row; exact ⟨_, _, _, fun _ => rfl, eablOwner_leavesTable⟩
  | ecnf _ => cases row; exact ⟨_, _, _, fun _ => rfl, ecnfOwner_leavesTable _⟩
  | epld _ => cases row; exact ⟨_, _, _, fun _ => rfl, epldOwner_leavesTable _⟩
  | eldf _ => cases row; exact ⟨_, _, _, fun _ => rfl, eldfOwner_leavesTable _⟩
  | etmp _ => cases row; exact ⟨_, _, _, fun _ => rfl, etmpOwner_leavesTable _⟩
  | ernd _ => cases row; exact ⟨_, _, _, fun _ => rfl, erndOwner_leavesTable _⟩
  | ebin _ => cases row; exact ⟨_, _, _, fun _ => rfl, ebinOwner_leavesTable _⟩
  | sens _ => cases row; exact ⟨_, _, _, fun _ => rfl, sensOwner_leavesTable _⟩
  | psta _ => cases row; exact ⟨_, _, _, fun _ => rfl, pstaOwner_leavesTable _⟩
  | _ => cases row

end Sys2Proof.Machine
end

section
/-! The invariants of the equipment table, of the members that the cells name and of the clock's counts (R20, R23, R30,
R170, R172), and the updates that keep them. -/

namespace Sys2Proof.Machine

-- one theorem at a time: many at once, each with a thread of its own, can exceed the memory limit
set_option Elab.async false

/-! ## The invariants, by what they speak of -/

/-- The entries by themselves (R20, R23): the first three parts of `State.EquipmentSound`. -/
structure State.EntriesSound (s : State) : Prop where
  ids   : ∀ i j e f, s.entry i = some e → s.entry j = some f → e.id = f.id → i = j
  range : ∀ i e, s.entry i = some e → e.id ≠ 0 ∧ 2 ≤ e.port.val ∧ e.age ≤ 65535
  ports : ∀ p, s.portCount p ≤ 4

/-- The member of this kind that the cell names. -/
def Cell.member (x : Cell) : EquipKind → Option Id
  | .handler => x.handler
  | .tester => x.tester

/-- What an entry with a membership says of its cell: who is a member, where, and of which kind. -/
structure Enrolment where
  id   : Id
  cell : CellNo
  kind : EquipKind

def Entry.enrolment (e : Entry) : Option Enrolment := e.membership.map fun c => ⟨e.id, c, e.ability.kind⟩

/-- The enrolment at a position, where its entry has a membership. -/
def State.enrolled (s : State) (i : Position) : Option Enrolment := (s.entry i).bind Entry.enrolment

/-- Entries and cells agree on the members (R30), and a VACANT cell, which CDCK may give members, has none. -/
structure State.MembersSound (s : State) : Prop where
  named    : ∀ c k id, (s.cell c).member k = some id → ∃ i, s.enrolled i = some ⟨id, c, k⟩
  enrolled : ∀ i m, s.enrolled i = some m → ∃ k, (s.cell m.cell).member k = some m.id
  vacant   : ∀ c k, (s.cell c).state = .vacant → (s.cell c).member k = none

/-- What every command keeps of the table and the clock. -/
structure State.TableSound (s : State) : Prop where
  entries : s.EntriesSound
  members : s.MembersSound
  clock   : s.ClockSound

theorem Entry.enrolment_eq_some {e : Entry} {m : Enrolment} :
    e.enrolment = some m ↔ e.membership = some m.cell ∧ e.id = m.id ∧ e.ability.kind = m.kind := by
  obtain ⟨id, c, k⟩ := m
  simp only [Entry.enrolment, Option.map_eq_some_iff, Enrolment.mk.injEq]
  constructor
  · rintro ⟨d, membership, rfl, rfl, rfl⟩
    exact ⟨membership, rfl, rfl⟩
  · rintro ⟨membership, rfl, rfl⟩
    exact ⟨c, membership, rfl, rfl, rfl⟩

theorem State.enrolled_of_entry {s : State} {i : Position} {e : Entry} (at_i : s.entry i = some e) :
    s.enrolled i = e.enrolment := by
  simp [State.enrolled, at_i]

theorem State.enrolled_eq_some {s : State} {i : Position} {m : Enrolment} : s.enrolled i = some m ↔
    ∃ e, s.entry i = some e ∧ e.membership = some m.cell ∧ e.id = m.id ∧ e.ability.kind = m.kind := by
  simp [State.enrolled, Option.bind_eq_some_iff, Entry.enrolment_eq_some]

theorem Cell.hasMember_eq {x : Cell} {id : Id} : x.hasMember id = true ↔ x.handler = some id ∨ x.tester = some id := by
  simp [Cell.hasMember]

theorem Cell.hasMember_iff {x : Cell} {id : Id} : x.hasMember id = true ↔ ∃ k, x.member k = some id := by
  rw [Cell.hasMember_eq]
  constructor
  · rintro (handler | tester)
    · exact ⟨.handler, handler⟩
    · exact ⟨.tester, tester⟩
  · rintro ⟨k, member⟩
    cases k with
    | handler => exact .inl member
    | tester => exact .inr member

theorem Cell.SameMembers.member {x y : Cell} (h : x.SameMembers y) (k : EquipKind) : y.member k = x.member k := by
  cases k with
  | handler => exact h.handler
  | tester => exact h.tester

/-! ## Where the invariants come from and what they give -/

theorem State.EquipmentSound.entries {s : State} (h : s.EquipmentSound) : s.EntriesSound := ⟨h.ids, h.range, h.ports⟩

theorem State.EquipmentSound.members {s : State} (h : s.EquipmentSound)
    (vacant : ∀ c, (s.cell c).state = .vacant → (s.cell c).handler = none ∧ (s.cell c).tester = none) :
    s.MembersSound where
  named c k id member := by
    have entry : ∃ i e, s.entry i = some e ∧ e.id = id ∧ e.membership = some c ∧ e.ability.kind = k := by
      cases k with
      | handler => exact h.handler c id member
      | tester => exact h.tester c id member
    obtain ⟨i, e, at_i, same, membership, kind⟩ := entry
    exact ⟨i, State.enrolled_eq_some.mpr ⟨e, at_i, membership, same, kind⟩⟩
  enrolled i m enrolled := by
    obtain ⟨e, at_i, membership, same, -⟩ := State.enrolled_eq_some.mp enrolled
    obtain handler | tester := h.member i e m.cell at_i membership
    · exact ⟨.handler, same ▸ handler⟩
    · exact ⟨.tester, same ▸ tester⟩
  vacant c k state := by
    obtain ⟨handler, tester⟩ := vacant c state
    cases k with
    | handler => exact handler
    | tester => exact tester

theorem State.Sound.table {s : State} (h : s.Sound) : s.TableSound where
  entries := h.equipment.entries
  members := h.equipment.members fun c state =>
    ⟨(h.binding.cells c).handler.mpr state, (h.binding.cells c).tester.mpr state⟩
  clock := h.clock

theorem State.TableSound.equipment {s : State} (h : s.TableSound) : s.EquipmentSound := by
  have entry {c : CellNo} {k : EquipKind} {id : Id} (member : (s.cell c).member k = some id) :
      ∃ i e, s.entry i = some e ∧ e.id = id ∧ e.membership = some c ∧ e.ability.kind = k := by
    obtain ⟨i, enrolled⟩ := h.members.named c k id member
    obtain ⟨e, at_i, membership, same, kind⟩ := State.enrolled_eq_some.mp enrolled
    exact ⟨i, e, at_i, same, membership, kind⟩
  exact
    { ids := h.entries.ids, range := h.entries.range, ports := h.entries.ports
      handler := fun c id handler => entry (k := .handler) handler
      tester := fun c id tester => entry (k := .tester) tester
      member := fun i e c at_i membership => by
        obtain ⟨k, member⟩ := h.members.enrolled i ⟨e.id, c, e.ability.kind⟩
          (State.enrolled_eq_some.mpr ⟨e, at_i, membership, rfl, rfl⟩)
        cases k with
        | handler => exact .inl member
        | tester => exact .inr member }

/-! ## The entries -/

/-- The positions whose entries are on a port. -/
def State.onPortSet (s : State) (p : Port) : Finset Position :=
  Finset.univ.filter fun i => (s.entry i).map Entry.port = some p

theorem State.mem_onPortSet {s : State} {p : Port} {i : Position} :
    i ∈ s.onPortSet p ↔ ∃ e, s.entry i = some e ∧ e.port = p := by
  simp [State.onPortSet]

theorem State.portCount_eq (s : State) (p : Port) : s.portCount p = (s.onPortSet p).card := by
  rw [State.portCount, ← List.toFinset_card_of_nodup ((List.nodup_finRange 48).filter _)]
  congr 1
  ext i
  cases at_i : s.entry i <;> simp [State.mem_onPortSet, at_i]

namespace State.EntriesSound

variable {s t : State}

/-- A change that makes no entry, and gives none another id or port. -/
theorem of_entries (h : s.EntriesSound)
    (old : ∀ i e, t.entry i = some e → e.age ≤ 65535 ∧ ∃ f, s.entry i = some f ∧ f.id = e.id ∧ f.port = e.port) :
    t.EntriesSound where
  ids i j e f at_i at_j same := by
    obtain ⟨-, e', at_i', id_e, -⟩ := old i e at_i
    obtain ⟨-, f', at_j', id_f, -⟩ := old j f at_j
    exact h.ids i j e' f' at_i' at_j' (by rw [id_e, id_f, same])
  range i e at_i := by
    obtain ⟨age, f, at_i', id, port⟩ := old i e at_i
    obtain ⟨nonzero, high, -⟩ := h.range i f at_i'
    exact ⟨id ▸ nonzero, port ▸ high, age⟩
  ports p := by
    refine le_trans ?_ (h.ports p)
    rw [State.portCount_eq, State.portCount_eq]
    refine Finset.card_le_card fun i on_p => ?_
    obtain ⟨e, at_i, port⟩ := State.mem_onPortSet.mp on_p
    obtain ⟨-, f, at_i', -, same⟩ := old i e at_i
    exact State.mem_onPortSet.mpr ⟨f, at_i', same.trans port⟩

/-- An entry is put at a position, of an id that no other position has, on a port that has room for it or that the
position's entry was on already (R20). -/
theorem setEntry (h : s.EntriesSound) {i : Position} {e : Entry}
    (alone : ∀ j f, s.entry j = some f → f.id = e.id → j = i) (nonzero : e.id ≠ 0) (port : 2 ≤ e.port.val)
    (age : e.age ≤ 65535) (room : i ∈ s.onPortSet e.port ∨ s.portCount e.port < 4) :
    (s.setEntry i (some e)).EntriesSound where
  ids j k f g at_j at_k same := by
    by_cases j_i : j = i <;> by_cases k_i : k = i
    · rw [j_i, k_i]
    · subst j_i
      rw [State.setEntry_entry_same, Option.some.injEq] at at_j
      rw [State.setEntry_entry_ne s _ k_i] at at_k
      exact (alone k g at_k (by rw [at_j, same])).symm
    · subst k_i
      rw [State.setEntry_entry_same, Option.some.injEq] at at_k
      rw [State.setEntry_entry_ne s _ j_i] at at_j
      exact alone j f at_j (by rw [at_k, same])
    · rw [State.setEntry_entry_ne s _ j_i] at at_j
      rw [State.setEntry_entry_ne s _ k_i] at at_k
      exact h.ids j k f g at_j at_k same
  range j f at_j := by
    by_cases j_i : j = i
    · subst j_i
      rw [State.setEntry_entry_same, Option.some.injEq] at at_j
      exact at_j ▸ ⟨nonzero, port, age⟩
    · rw [State.setEntry_entry_ne s _ j_i] at at_j
      exact h.range j f at_j
  ports p := by
    have elsewhere {j : Position} (other : j ≠ i) (on_p : j ∈ (s.setEntry i (some e)).onPortSet p) :
        j ∈ s.onPortSet p := by
      rwa [State.mem_onPortSet, State.setEntry_entry_ne s _ other, ← State.mem_onPortSet] at on_p
    have here (on_p : i ∈ (s.setEntry i (some e)).onPortSet p) : e.port = p := by
      simpa [State.mem_onPortSet] using on_p
    by_cases newcomer : e.port = p ∧ i ∉ s.onPortSet p
    · obtain ⟨rfl, absent⟩ := newcomer
      have free : (s.onPortSet e.port).card < 4 := State.portCount_eq s _ ▸ room.resolve_left absent
      rw [State.portCount_eq]
      refine (Finset.card_le_card fun j on_p => ?_).trans ((Finset.card_insert_le i _).trans free)
      by_cases j_i : j = i
      · exact Finset.mem_insert.mpr (.inl j_i)
      · exact Finset.mem_insert_of_mem (elsewhere j_i on_p)
    · refine le_trans ?_ (h.ports p)
      rw [State.portCount_eq, State.portCount_eq]
      refine Finset.card_le_card fun j on_p => ?_
      by_cases j_i : j = i
      · subst j_i
        exact not_not.mp fun absent => newcomer ⟨here on_p, absent⟩
      · exact elsewhere j_i on_p

/-- A change of the entry with an id changes it at its one position, and no other entry. -/
theorem onEquip_entry (h : s.EntriesSound) (id : Id) (f : Entry → Entry) (i : Position) :
    (s.onEquip id f).entry i = (s.entry i).map fun e => if e.id = id then f e else e := by
  cases found : s.find id with
  | none =>
    have absent := State.find_none.mp found
    cases at_i : s.entry i with
    | none => simp [State.onEquip, found, at_i]
    | some e => simp [State.onEquip, found, at_i, absent i e at_i]
  | some je =>
    obtain ⟨j, e⟩ := je
    obtain ⟨at_j, same⟩ := State.find_entry found
    rw [State.onEquip_of_find f found]
    by_cases i_j : i = j
    · subst i_j
      simp [at_j, same]
    · rw [State.setEntry_entry_ne s _ i_j]
      cases at_i : s.entry i with
      | none => rfl
      | some g =>
        have other : g.id ≠ id := fun same' => i_j (h.ids i j g e at_i at_j (same'.trans same.symm))
        simp [other]

end State.EntriesSound

/-! ## The members -/

/-- The same enrolments, and cells that name the same members. -/
theorem State.MembersSound.of_enrolled {s t : State} (h : s.MembersSound) (same : ∀ i, t.enrolled i = s.enrolled i)
    (cells : ∀ c, (s.cell c).SameMembers (t.cell c)) : t.MembersSound where
  named c k id member := by
    obtain ⟨i, enrolled⟩ := h.named c k id (by rwa [(cells c).member k] at member)
    exact ⟨i, by rw [same, enrolled]⟩
  enrolled i m enrolled := by
    obtain ⟨k, member⟩ := h.enrolled i m (by rwa [same] at enrolled)
    exact ⟨k, by rw [(cells _).member k, member]⟩
  vacant c k vacant := by
    rw [(cells c).member k]
    exact h.vacant c k ((cells c).vacant vacant)

/-- A change at one position that leaves the enrolment there. -/
theorem State.MembersSound.setEntry {s : State} (h : s.MembersSound) {i : Position} {o : Option Entry}
    (same : o.bind Entry.enrolment = s.enrolled i) : (s.setEntry i o).MembersSound := by
  refine h.of_enrolled (fun j => ?_) fun _ => .refl _
  by_cases j_i : j = i
  · subst j_i
    rw [State.enrolled, State.setEntry_entry_same, same]
  · rw [State.enrolled, State.setEntry_entry_ne s _ j_i, State.enrolled]

namespace State.TableSound

variable {s t : State}

theorem of_sameTable (h : s.TableSound) (same : s.SameTable t) : t.TableSound where
  entries := h.entries.of_entries fun i e at_i => by
    obtain ⟨f, at_i', standing⟩ := same.entry_of at_i
    obtain ⟨id, port, -, age, -⟩ := Standing.mk.inj standing
    obtain ⟨-, -, most⟩ := h.entries.range i f at_i'
    exact ⟨age ▸ most, f, at_i', id, port⟩
  members := h.members.of_enrolled (fun i => by
    have enrolment (o : Option Entry) : o.bind Entry.enrolment =
        (o.map Entry.standing).bind fun x => x.membership.map fun c => ⟨x.id, c, x.kind⟩ := by
      cases o <;> rfl
    rw [State.enrolled, enrolment, same.entries i, ← enrolment, State.enrolled]) same.cells
  clock :=
    ⟨same.seconds ▸ h.clock.seconds, by rw [same.minute, same.period]; exact h.clock.minute⟩

theorem of_ite {c : Prop} [Decidable c] (h : s.TableSound) (k : t.TableSound) :
    (if c then s else t).TableSound := by
  split
  · exact h
  · exact k

/-- An entry is replaced where it stands by one of its id, membership and kind. -/
theorem replace (h : s.TableSound) {i : Position} {e f : Entry} (at_i : s.entry i = some e) (id : f.id = e.id)
    (membership : f.membership = e.membership) (kind : f.ability.kind = e.ability.kind) (port : 2 ≤ f.port.val)
    (age : f.age ≤ 65535) (room : e.port = f.port ∨ s.portCount f.port < 4) :
    (s.setEntry i (some f)).TableSound where
  entries := by
    obtain ⟨nonzero, -, -⟩ := h.entries.range i e at_i
    refine h.entries.setEntry (fun j g at_j same => h.entries.ids j i g e at_j at_i (same.trans id)) (id ▸ nonzero) port
      age (room.imp_left fun same => State.mem_onPortSet.mpr ⟨e, at_i, same⟩)
  members := h.members.setEntry (by
    rw [State.enrolled_of_entry at_i, Option.bind_some, Entry.enrolment, Entry.enrolment, id, membership, kind])
  clock := ⟨h.clock.seconds, h.clock.minute⟩

end State.TableSound

end Sys2Proof.Machine
end

section
/-! Docking and undocking, the ticks, the clock's requests and the resets keep the equipment table, its members and the
clock. -/

namespace Sys2Proof.Machine

-- one theorem at a time: many at once, each with a thread of its own, can exceed the memory limit
set_option Elab.async false

/-! ## Memberships given and taken (R30, R37, R52) -/

/-- The entry with this membership. -/
def Entry.withMembership (m : Option CellNo) (e : Entry) : Entry := { e with membership := m }

@[simp] theorem Entry.withMembership_id (m : Option CellNo) (e : Entry) : (e.withMembership m).id = e.id := rfl

@[simp] theorem Entry.withMembership_twice (m n : Option CellNo) (e : Entry) :
    (e.withMembership m).withMembership n = e.withMembership n := rfl

section onEquip
variable (s : State) (id : Id) (f : Entry → Entry)

/-- A change of an entry, or none, is a change of the table only. -/
theorem State.onEquip_eq : s.onEquip id f = { s with equipment := (s.onEquip id f).equipment } := by
  unfold State.onEquip
  split <;> rfl

@[simp] theorem State.onEquip_cell (c : CellNo) : (s.onEquip id f).cell c = s.cell c := by rw [State.onEquip_eq]; rfl
@[simp] theorem State.onEquip_clock : (s.onEquip id f).clock = s.clock := by rw [State.onEquip_eq]
@[simp] theorem State.onEquip_tables : (s.onEquip id f).tables = s.tables := by rw [State.onEquip_eq]

end onEquip

section clearMembership
variable (s : State) (m : Option Id)

@[simp] theorem State.clearMembership_none : s.clearMembership none = s := rfl

theorem State.clearMembership_some (id : Id) :
    s.clearMembership (some id) = s.onEquip id (Entry.withMembership none) := rfl

@[simp] theorem State.clearMembership_cell (c : CellNo) : (s.clearMembership m).cell c = s.cell c := by
  cases m <;> simp [State.clearMembership_some]
@[simp] theorem State.clearMembership_clock : (s.clearMembership m).clock = s.clock := by
  cases m <;> simp [State.clearMembership_some]
@[simp] theorem State.clearMembership_tables : (s.clearMembership m).tables = s.tables := by
  cases m <;> simp [State.clearMembership_some]

end clearMembership

/-- A change of memberships leaves the entries sound. -/
theorem State.EntriesSound.of_memberships {s t : State} (h : s.EntriesSound) {m : Option CellNo}
    {chosen : Entry → Prop} [DecidablePred chosen]
    (entries : ∀ i, t.entry i = (s.entry i).map fun e => if chosen e then e.withMembership m else e) :
    t.EntriesSound := by
  refine h.of_entries fun i e at_i => ?_
  rw [entries, Option.map_eq_some_iff] at at_i
  obtain ⟨f, at_i, rfl⟩ := at_i
  obtain ⟨-, -, age⟩ := h.range i f at_i
  split
  · exact ⟨age, f, at_i, rfl, rfl⟩
  · exact ⟨age, f, at_i, rfl, rfl⟩

/-- The entries after two entries, or one, are given a membership. -/
theorem State.EntriesSound.onEquip_onEquip {s : State} (h : s.EntriesSound) (a b : Id) (m : Option CellNo)
    (i : Position) : ((s.onEquip a (Entry.withMembership m)).onEquip b (Entry.withMembership m)).entry i =
      (s.entry i).map fun e => if e.id = a ∨ e.id = b then e.withMembership m else e := by
  have first := h.onEquip_entry a (Entry.withMembership m)
  have second := (h.of_memberships first).onEquip_entry b (Entry.withMembership m)
  rw [second, first]
  cases s.entry i with
  | none => rfl
  | some e =>
    by_cases at_a : e.id = a
    · simp [at_a]
    · simp only [Option.map_some, at_a, if_false, false_or]

theorem State.EntriesSound.clearMembership_entry {s : State} (h : s.EntriesSound) (m : Option Id) (i : Position) :
    (s.clearMembership m).entry i =
      (s.entry i).map fun e => if m = some e.id then e.withMembership none else e := by
  cases m with
  | none => cases at_i : s.entry i <;> simp [at_i]
  | some id =>
    rw [State.clearMembership_some, h.onEquip_entry]
    simp only [Option.some.injEq, eq_comm]

/-- The entries once the memberships of a cell's members are cleared (R52 step 2). -/
theorem State.EntriesSound.clearMemberships_entry {s : State} (h : s.EntriesSound) (x : Cell) (i : Position) :
    ((s.clearMembership x.handler).clearMembership x.tester).entry i =
      (s.entry i).map fun e => if x.hasMember e.id = true then e.withMembership none else e := by
  have first := h.clearMembership_entry x.handler
  have second := (h.of_memberships first).clearMembership_entry x.tester
  rw [second, first]
  cases s.entry i with
  | none => rfl
  | some e =>
    by_cases handler : x.handler = some e.id <;> by_cases tester : x.tester = some e.id <;>
      simp [handler, tester, Entry.withMembership, Cell.hasMember]

/-! ## What a tick makes of the records (R27, R170, R172) -/

@[simp] theorem State.second_entry (s : State) (i : Position) : s.second.entry i = (s.entry i).map Entry.tick := by
  simp [State.second, State.entry]

@[simp] theorem State.second_cell (s : State) (c : CellNo) : s.second.cell c = (s.cell c).tick := by
  simp [State.second, State.cell]

theorem nextMinute_le {period m : Nat} (within : m ≤ period) : nextMinute period m ≤ period := by
  unfold nextMinute
  split <;> omega

namespace State.TableSound

variable {s t : State}

/-- A cell without members and without entries enrolled in it, the others as they were. -/
theorem of_dissolved (h : s.TableSound) (c : CellNo)
    (entries : ∀ i, t.entry i =
      (s.entry i).map fun e => if (s.cell c).hasMember e.id = true then e.withMembership none else e)
    (dissolved : t.cell c = Cell.vacant) (cells : ∀ d, d ≠ c → t.cell d = s.cell d) (clock : t.ClockSound) :
    t.TableSound := by
  have enrolled (i : Position) (m : Enrolment) :
      t.enrolled i = some m ↔ s.enrolled i = some m ∧ m.cell ≠ c := by
    rw [State.enrolled, entries, State.enrolled]
    cases at_i : s.entry i with
    | none => simp
    | some e =>
      by_cases member : (s.cell c).hasMember e.id = true
      · obtain ⟨k, names⟩ := Cell.hasMember_iff.mp member
        obtain ⟨j, at_c⟩ := h.members.named c k e.id names
        obtain ⟨f, at_j, in_c, same, -⟩ := State.enrolled_eq_some.mp at_c
        obtain rfl := h.entries.ids j i f e at_j at_i same
        obtain rfl : f = e := Option.some.inj (at_j.symm.trans at_i)
        simp only [Option.map_some, Option.bind_some, member, if_true]
        constructor
        · intro cleared
          cases cleared
        · rintro ⟨stays, other⟩
          obtain ⟨in_m, -⟩ := Entry.enrolment_eq_some.mp stays
          exact absurd (Option.some.inj (in_m.symm.trans in_c)) other
      · simp only [Option.map_some, Option.bind_some, member]
        refine ⟨fun stays => ⟨stays, ?_⟩, fun stays => stays.1⟩
        rintro rfl
        obtain ⟨-, id, -⟩ := Entry.enrolment_eq_some.mp stays
        have names := h.members.enrolled i m ((State.enrolled_of_entry at_i).trans stays)
        exact member (Cell.hasMember_iff.mpr (id ▸ names))
  have nobody (k : EquipKind) : (t.cell c).member k = none := by
    rw [dissolved]
    cases k <;> rfl
  refine ⟨h.entries.of_memberships entries, ⟨fun d k id member => ?_, fun i m at_i => ?_, fun d k state => ?_⟩, clock⟩
  · have other : d ≠ c := by
      rintro rfl
      rw [nobody] at member
      cases member
    rw [cells d other] at member
    obtain ⟨i, at_i⟩ := h.members.named d k id member
    exact ⟨i, (enrolled i _).mpr ⟨at_i, other⟩⟩
  · obtain ⟨at_i, other⟩ := (enrolled i m).mp at_i
    rw [cells _ other]
    exact h.members.enrolled i m at_i
  · by_cases at_c : d = c
    · rw [at_c, nobody]
    · rw [cells d at_c] at state ⊢
      exact h.members.vacant d k state

/-- A VACANT cell gets two members that have none yet, of the two kinds. -/
theorem of_docked (h : s.TableSound) (c : CellNo) {a b : Id} {i j : Position} {e f : Entry}
    (vacant : (s.cell c).state = .vacant) (at_i : s.find a = some (i, e)) (at_j : s.find b = some (j, f))
    (handler : e.ability.kind = .handler) (tester : f.ability.kind = .tester) (free_a : e.membership = none)
    (free_b : f.membership = none)
    (entries : ∀ i, t.entry i =
      (s.entry i).map fun e => if e.id = a ∨ e.id = b then e.withMembership (some c) else e)
    (named_a : (t.cell c).handler = some a) (named_b : (t.cell c).tester = some b)
    (offered : (t.cell c).state ≠ .vacant) (cells : ∀ d, d ≠ c → t.cell d = s.cell d) (clock : t.ClockSound) :
    t.TableSound := by
  obtain ⟨entry_i, id_e⟩ := State.find_entry at_i
  obtain ⟨entry_j, id_f⟩ := State.find_entry at_j
  have free {k : Position} {g : Entry} (at_k : s.entry k = some g) (one : g.id = a ∨ g.id = b) :
      g.membership = none := by
    obtain same | same := one
    · obtain rfl := h.entries.ids k i g e at_k entry_i (same.trans id_e.symm)
      obtain rfl : g = e := Option.some.inj (at_k.symm.trans entry_i)
      exact free_a
    · obtain rfl := h.entries.ids k j g f at_k entry_j (same.trans id_f.symm)
      obtain rfl : g = f := Option.some.inj (at_k.symm.trans entry_j)
      exact free_b
  refine ⟨h.entries.of_memberships entries, ⟨fun d k id member => ?_, fun k m at_k => ?_, fun d k state => ?_⟩, clock⟩
  · by_cases at_c : d = c
    · subst at_c
      cases k with
      | handler =>
        obtain rfl : a = id := Option.some.inj (named_a.symm.trans member)
        exact ⟨i, by simp [State.enrolled, entries, entry_i, id_e, Entry.enrolment, Entry.withMembership, handler]⟩
      | tester =>
        obtain rfl : b = id := Option.some.inj (named_b.symm.trans member)
        exact ⟨j, by simp [State.enrolled, entries, entry_j, id_f, Entry.enrolment, Entry.withMembership, tester]⟩
    · rw [cells d at_c] at member
      obtain ⟨n, at_n⟩ := h.members.named d k id member
      obtain ⟨g, entry_n, membership, -⟩ := State.enrolled_eq_some.mp at_n
      have other : ¬(g.id = a ∨ g.id = b) := fun one => by simp [free entry_n one] at membership
      rw [State.enrolled_of_entry entry_n] at at_n
      exact ⟨n, by rw [State.enrolled, entries, entry_n]; simp [other, at_n]⟩
  · obtain ⟨g', entry_k, membership, id, -⟩ := State.enrolled_eq_some.mp at_k
    rw [entries, Option.map_eq_some_iff] at entry_k
    obtain ⟨g, entry_k, rfl⟩ := entry_k
    by_cases one : g.id = a ∨ g.id = b
    · simp only [one, if_true, Entry.withMembership, Option.some.injEq] at membership id
      rw [← membership, ← id]
      obtain rfl | rfl := one
      · exact ⟨.handler, named_a⟩
      · exact ⟨.tester, named_b⟩
    · rw [if_neg one] at membership id
      obtain ⟨n, member⟩ := h.members.enrolled k ⟨g.id, m.cell, g.ability.kind⟩
        (State.enrolled_eq_some.mpr ⟨g, entry_k, membership, rfl, rfl⟩)
      have other : m.cell ≠ c := by
        intro at_c
        rw [at_c, h.members.vacant c n vacant] at member
        cases member
      exact ⟨n, by rw [cells _ other, ← id, member]⟩
  · have other : d ≠ c := by
      rintro rfl
      exact offered state
    rw [cells d other] at state ⊢
    exact h.members.vacant d k state

/-- CDCK on a VACANT cell with two entries of the right kinds and no membership (R37). -/
theorem dock (h : s.TableSound) {c : CellNo} {a b : Id} (vacant : (s.cell c).state = .vacant)
    (checked_a : s.memberFault a .handler = none) (checked_b : s.memberFault b .tester = none)
    (taken_a : s.memberTaken a = none) (taken_b : s.memberTaken b = none) : (s.dock c a b).TableSound := by
  have found {id : Id} {k : EquipKind} (checked : s.memberFault id k = none) (taken : s.memberTaken id = none) :
      ∃ i e, s.find id = some (i, e) ∧ e.ability.kind = k ∧ e.membership = none := by
    unfold State.memberFault State.equip at checked
    unfold State.memberTaken State.equip at taken
    cases known : s.find id with
    | none => simp [known] at checked
    | some ie =>
      obtain ⟨i, e⟩ := ie
      by_cases stale : e.state = .stale
      · simp [known, stale] at checked
      · exact ⟨i, e, rfl, by simpa [known, stale] using checked, by simpa [known] using taken⟩
  obtain ⟨i, e, at_i, handler, free_a⟩ := found checked_a taken_a
  obtain ⟨j, f, at_j, tester, free_b⟩ := found checked_b taken_b
  have entries := h.entries.onEquip_onEquip a b (some c)
  have docked : s.dock c a b = (((s.onEquip a (Entry.withMembership (some c))).onEquip b
      (Entry.withMembership (some c))).onCell c fun x =>
        { x with handler := some a, tester := some b, mode := .maintenance }).enterOffer c := rfl
  rw [docked]
  refine TableSound.of_sameTable ?_ (SameTable.enterOffer_of_cell c false false (.refl _))
  refine h.of_docked c vacant at_i at_j handler tester free_a free_b entries ?_ ?_ ?_ (fun d other => ?_) ⟨?_, ?_⟩
  · simp [State.onCell]
  · simp [State.onCell]
  · simp [State.onCell]
  · simp [State.onCell, other]
  · simpa using h.clock.seconds
  · simpa using h.clock.minute

/-- CUND (R52). -/
theorem undock (h : s.TableSound) (src : Option Port) (c : CellNo) : (s.undock src c).TableSound := by
  have entries := h.entries.clearMemberships_entry (s.cell c)
  unfold State.undock
  dsimp only
  have dissolved : (((s.clearMembership (s.cell c).handler).clearMembership (s.cell c).tester).setCell c
      Cell.vacant).TableSound := by
    refine h.of_dissolved c entries (by simp) (fun d other => ?_) ⟨?_, ?_⟩
    · simp [other]
    · simpa using h.clock.seconds
    · simpa using h.clock.minute
  generalize (s.clearMembership (s.cell c).handler).clearMembership (s.cell c).tester = u at dissolved
  have notified :
      (u.setCell c Cell.vacant).SameTable ((u.notifyMembers c fun id => .ndis id c).setCell c Cell.vacant) := by
    rw [u.onlyPorts_notifyMembers c fun id => .ndis id c]
    exact (SameTable.refl _).of_records
  refine dissolved.of_sameTable ?_
  split
  · exact SameTable.unbind_of_cell src c _ _ notified
  · exact notified.of_onlyPorts (State.onlyPorts_ncel _ c)

/-! ## Ticks (R27, R28, R170 to R172) -/

/-- The clock's counts may be any within their ranges. -/
theorem withClock (h : s.TableSound) {clock : Clock} (seconds : clock.seconds ≤ 59)
    (minute : clock.minute ≤ s.tables.parameters.period) : ({ s with clock := clock } : State).TableSound :=
  ⟨⟨h.entries.ids, h.entries.range, h.entries.ports⟩, h.members.of_enrolled (fun _ => rfl) fun _ => .refl _,
    ⟨seconds, minute⟩⟩

theorem goStale (h : s.TableSound) (i : Position) : (s.goStale i).TableSound := by
  unfold State.goStale
  split
  · rename_i e at_i
    obtain ⟨-, port, age⟩ := h.entries.range i e at_i
    have aged : (s.setEntry i (some { e with state := .stale })).TableSound :=
      h.replace at_i rfl rfl rfl port age (.inl rfl)
    refine of_ite ?_ h
    dsimp only
    split
    · exact aged.of_sameTable ((SameTable.refl _).disturb none _ _)
    · exact aged
  · exact h

theorem removeEntry (h : s.TableSound) (i : Position) : (s.removeEntry i).TableSound := by
  unfold State.removeEntry
  split
  · rename_i e at_i
    split
    · rename_i leaves
      have free : e.membership = none := by
        have away := leaves.2
        simp only [Entry.goesAway, Bool.and_eq_true, Option.isNone_iff_eq_none] at away
        exact away.1.2
      refine ⟨h.entries.of_entries fun j f at_j => ?_,
        h.members.setEntry (by simp [State.enrolled, at_i, Entry.enrolment, free]),
        ⟨h.clock.seconds, h.clock.minute⟩⟩
      have other : j ≠ i := by
        rintro rfl
        simp at at_j
      rw [State.setEntry_entry_ne s _ other] at at_j
      obtain ⟨-, -, age⟩ := h.entries.range j f at_j
      exact ⟨age, f, at_j, rfl, rfl⟩
    · exact h
  · exact h

theorem evaluateGates (h : s.TableSound) (src : Option Port) : (s.evaluateGates src).TableSound :=
  h.of_sameTable ((SameTable.refl s).evaluateGates src)

theorem minute (h : s.TableSound) : s.minute.TableSound := by
  have ticked (stamp : Stamp) := h.withClock
    (clock := { s.clock with stamp := stamp, minute := nextMinute s.tables.parameters.period s.clock.minute })
    h.clock.seconds (nextMinute_le h.clock.minute)
  have recomputed (stamp : Stamp) := (ticked stamp).of_sameTable (SameTable.refl _).recompute
  have marked (u : State) (k : u.TableSound) : u.fireMark.TableSound :=
    of_ite (k.of_sameTable ((SameTable.refl u).notify _ _)) k
  exact marked _ (of_ite (recomputed _) ((recomputed _).evaluateGates none))

theorem second (h : s.TableSound) : s.second.TableSound where
  entries := h.entries.of_entries fun i e at_i => by
    rw [second_entry, Option.map_eq_some_iff] at at_i
    obtain ⟨f, at_i, rfl⟩ := at_i
    exact ⟨Nat.min_le_left _ _, f, at_i, rfl, rfl⟩
  members := h.members.of_enrolled
    (fun i => by rw [State.enrolled, second_entry, State.enrolled]; cases s.entry i <;> rfl)
    fun c => by rw [second_cell]; exact ⟨rfl, rfl, id⟩
  clock := by
    have seconds := h.clock.seconds
    refine ⟨?_, h.clock.minute⟩
    show (if s.clock.seconds = 59 then 0 else s.clock.seconds + 1) ≤ 59
    split <;> omega

/-! ## Resets, and new periods (R172, R174, R179, R189) -/

/-- With an empty table and VACANT cells only the clock is left. -/
theorem of_emptied (entries : ∀ i, t.entry i = none) (cells : ∀ c, t.cell c = Cell.vacant) (clock : t.ClockSound) :
    t.TableSound where
  entries :=
    { ids := fun i j e f at_i => by simp [entries] at at_i
      range := fun i e at_i => by simp [entries] at at_i
      ports := fun p => by simp [State.portCount, entries] }
  members :=
    { named := fun c k id member => by rw [cells] at member; cases k <;> cases member
      enrolled := fun i m at_i => by simp [State.enrolled, entries] at at_i
      vacant := fun c k _ => by rw [cells]; cases k <;> rfl }
  clock := clock

theorem floorReset (h : s.TableSound) : s.floorReset.TableSound :=
  of_emptied (fun i => by simp [State.floorReset, State.clearRecords, State.entry])
    (fun c => by simp [State.floorReset, State.clearRecords, State.cell]) ⟨h.clock.seconds, h.clock.minute⟩

theorem powerOn (s : State) (cut : WriteCut) : (s.powerOn cut).TableSound :=
  of_emptied State.reset_entry State.reset_cell ⟨Nat.zero_le _, Nat.zero_le _⟩

/-- New tables may have a period below the minute; the clamp sets that right. -/
theorem periodChanged (h : s.TableSound) (same : s.SameTable { t with tables := s.tables }) (src : Option Port) :
    (t.periodChanged src).TableSound := by
  have counted := h.of_sameTable same
  have clamped : t.clampMinute.TableSound := by
    unfold State.clampMinute
    split
    · exact ⟨⟨counted.entries.ids, counted.entries.range, counted.entries.ports⟩,
        counted.members.of_enrolled (fun _ => rfl) fun _ => .refl _, ⟨counted.clock.seconds, Nat.zero_le _⟩⟩
    · exact ⟨⟨counted.entries.ids, counted.entries.range, counted.entries.ports⟩,
        counted.members.of_enrolled (fun _ => rfl) fun _ => .refl _,
        ⟨counted.clock.seconds, Nat.le_of_not_lt ‹_›⟩⟩
  exact clamped.evaluateGates src

theorem setParameters (h : s.TableSound) (new : Parameters) : (s.setParameters new).TableSound := by
  have recomputed {p : Prop} [Decidable p] (u : State) (same : s.SameTable u) :=
    SameTable.of_ite (c := p) same same.recompute
  unfold State.setParameters
  dsimp only
  split
  · rename_i period
    exact h.of_sameTable (recomputed _ ((SameTable.refl s).of_records (period := period.symm)))
  · refine h.periodChanged ?_ _
    split <;> exact (SameTable.refl s).of_records

theorem endLoad (h : s.TableSound) (reply : StoreReply) : (s.endLoad reply).TableSound := by
  unfold State.endLoad
  refine h.periodChanged ?_ none
  split <;> exact (SameTable.refl s).of_records

/-! ## The events of a tick -/

theorem takeDue (h : s.TableSound) (d : Due) : (s.takeDue d).TableSound := by
  have same := SameTable.refl s
  cases d with
  | negotiation c => exact of_ite (h.of_sameTable (same.enterFault c _)) h
  | load c => exact of_ite (h.of_sameTable (same.loadFailed none c)) h
  | settle c => exact of_ite (h.of_sameTable (same.settleFailed none c)) h
  | close c => exact of_ite (h.of_sameTable (same.closeExpired none c)) h
  | soak c => exact h.of_sameTable (same.endSoak c)
  | stale i => exact h.goStale i
  | removal i => exact h.removeEntry i
  | minute => exact h.minute
  | floorReset => exact h.floorReset

theorem withDue (h : s.TableSound) (ds : List Due) : ({ s with due := ds } : State).TableSound :=
  h.of_sameTable (SameTable.refl s).of_records

theorem settle (h : s.TableSound) : s.settle.TableSound := by
  have taken (ds : List Due) (u : State) (k : u.TableSound) : (ds.foldl State.takeDue u).TableSound := by
    induction ds generalizing u with
    | nil => exact k
    | cons d ds ih => exact ih _ (k.takeDue d)
  exact taken s.due _ (h.withDue [])

theorem takeListed (h : s.TableSound) (d : Due) : (s.takeListed d).TableSound :=
  of_ite ((h.withDue _).takeDue d) h

end State.TableSound

end Sys2Proof.Machine
end

section
/-! Every request, every event and every step keeps the equipment table, its members and the clock. -/

namespace Sys2Proof.Machine

-- one theorem at a time: many at once, each with a thread of its own, can exceed the memory limit
set_option Elab.async false

/-! ## The examination of a request (R8, R23, R24) -/

/-- An EANN on `p` has passed the check of its sender (R23). -/
def State.Announces (s : State) (p : Port) (f : Frame) : Prop :=
  supervisor p = false ∧ f.source ≠ 0
    ∧ ∀ i e, s.find f.source = some (i, e) → e.port = p ∨ s.portCount p < Config.entriesPerPort

/-- What the owner of a record makes of a request on `p` keeps the equipment table and the clock. -/
def KeepsTable {α : Type} (p : Port) (r : Req) (owner : Owner α) : Prop :=
  ∀ (f : Frame) (a : α) (s : State), s.TableSound → (r = .eann → s.Announces p f) → (owner f a s).1.TableSound

theorem LeavesTable.keeps {α : Type} {owner : Owner α} (leaves : LeavesTable owner) (p : Port) (r : Req) :
    KeepsTable p r owner :=
  fun f a s h _ => h.of_sameTable (leaves f a s)

namespace State.TableSound

variable {s : State} {α : Type} {owner : Owner α} {p : Port} {r : Req}

theorem answer (h : s.TableSound) (p : Port) (q : Option Req) (reply : Reply) : (s.answer p q reply).TableSound :=
  h.of_sameTable ((SameTable.refl s).answer p q reply)

theorem refuse (h : s.TableSound) (p : Port) (r : Req) (code : SenseCode) (a : BitVec 32) :
    (s.refuse p r code a).TableSound := h.answer p _ _

/-- The refresh of a sender that has passed its check (R24). -/
theorem refreshed (h : s.TableSound) {i : Position} {e : Entry} (at_i : s.entry i = some e)
    (equipment : supervisor p = false) (room : e.port = p ∨ s.portCount p < Config.entriesPerPort) :
    (s.setEntry i (some (e.refreshed p))).TableSound :=
  h.replace at_i rfl rfl rfl (not_supervisor_iff.mp equipment) (Nat.zero_le _) room

theorem checkFields (h : s.TableSound) (keeps : KeepsTable p r owner) (read : List Byte → Checked α) {f : Frame}
    (announces : r = .eann → s.Announces p f) : (s.checkFields p r read owner f).TableSound := by
  unfold State.checkFields
  split
  · exact h.refuse p r _ _
  · exact (keeps _ _ _ h announces).answer p _ _

theorem checkKnown (h : s.TableSound) (keeps : KeepsTable p r owner) (read : List Byte → Checked α) {f : Frame}
    (other : r ≠ .eann) {i : Position} {e : Entry} (at_i : s.entry i = some e) (equipment : supervisor p = false)
    (room : e.port = p ∨ s.portCount p < Config.entriesPerPort) :
    (s.checkKnown p r read owner f i e).TableSound := by
  have refreshed := h.refreshed at_i equipment room
  have reported (u : State) (k : u.TableSound) : (u.reportReturn e.returnsTo e.id).TableSound :=
    k.of_sameTable ((SameTable.refl u).reportReturn _ _)
  unfold State.checkKnown
  dsimp only
  split
  · exact (reported _ refreshed).refuse p r _ _
  · exact (reported _ (keeps _ _ _ refreshed fun eann => absurd eann other)).answer p _ _

theorem checkSender (h : s.TableSound) (keeps : KeepsTable p r owner) (read : List Byte → Checked α) (f : Frame)
    (equipment : supervisor p = false) : (s.checkSender p r read owner f).TableSound := by
  unfold State.checkSender
  split
  · exact h.refuse p r _ _
  · rename_i source
    split
    · rename_i unknown
      exact of_ite (h.checkFields keeps read fun _ => ⟨equipment, source, fun i e known => by simp [unknown] at known⟩)
        (h.refuse p r _ _)
    · rename_i i e known
      split
      · exact h.refuse p r _ _
      · rename_i admitted
        have room : e.port = p ∨ s.portCount p < Config.entriesPerPort := by
          by_cases same : e.port = p
          · exact .inl same
          · exact .inr (Nat.lt_of_not_le fun full => admitted ⟨same, full⟩)
        split
        · refine h.checkFields keeps read fun _ => ⟨equipment, source, fun j g found => ?_⟩
          obtain ⟨rfl, rfl⟩ := Prod.mk.inj (Option.some.inj (known.symm.trans found))
          exact room
        · rename_i other
          exact h.checkKnown keeps read other (State.find_entry known).1 equipment room

theorem examine (h : s.TableSound) (keeps : KeepsTable p r owner) (read : List Byte → Checked α) (v : Service) :
    (s.examine p r read owner v).TableSound := by
  unfold State.examine
  refine of_ite (h.of_sameTable (SameTable.refl s).of_records) ?_
  split
  · exact h.refuse p r _ _
  · rename_i permitted
    split
    · rename_i sup
      have other : r ≠ .eann := by
        rintro rfl
        simp [Req.permitted, sup] at permitted
      exact of_ite (h.refuse p r _ _) (h.checkFields keeps read fun eann => absurd eann other)
    · rename_i equipment
      exact h.checkSender keeps read _ (by simpa using equipment)

theorem request (h : s.TableSound) (keeps : KeepsTable p r owner) (mine : List Byte → Bool)
    (read : List Byte → Checked α) : (s.request p r mine read owner).TableSound := by
  unfold State.request
  dsimp only
  split
  · exact of_ite (h.settle.examine keeps read _) h.settle
  · exact h.settle

/-- Two outcomes of a test. -/
theorem of_outcomes {c : Prop} [Decidable c] {x y : State × Reply} (h : x.1.TableSound) (k : y.1.TableSound) :
    (if c then x else y).1.TableSound := by
  split
  · exact h
  · exact k

/-! ## EANN (R25, R26) -/

theorem freePosition_entry {i : Position} (free : s.freePosition = some i) : s.entry i = none := by
  simpa using List.find?_some free

/-- A new entry at a free position, of an id not in the table, on a port with room (R25). -/
theorem learn (h : s.TableSound) {f : Frame} (ability : Ability) (announces : s.Announces p f)
    (unknown : s.find f.source = none) : (s.learn p f.source ability).1.TableSound := by
  obtain ⟨equipment, source, -⟩ := announces
  unfold State.learn
  split
  · rename_i i free
    have free := freePosition_entry free
    split
    · rename_i room
      refine ⟨h.entries.setEntry (fun j e at_j same => ?_) source (not_supervisor_iff.mp equipment) (Nat.zero_le _)
        (.inr room), h.members.setEntry ?_, ⟨h.clock.seconds, h.clock.minute⟩⟩
      · exact absurd same (State.find_none.mp unknown j e at_j)
      · simp [State.enrolled, free, Entry.enrolment, Entry.learned]
    · exact h
  · exact h

/-- A known entry's new ability record, its refresh, and the disturbance of a member's cell (R26, R29). -/
theorem relearn (h : s.TableSound) {i : Position} {e : Entry} (ability : Ability) (at_i : s.entry i = some e)
    (equipment : supervisor p = false) (room : e.port = p ∨ s.portCount p < Config.entriesPerPort) :
    (s.relearn p i e ability).1.TableSound := by
  unfold State.relearn
  split
  · exact h
  · rename_i kind
    have renewed : (s.setEntry i (some { e.refreshed p with ability := ability })).TableSound :=
      h.replace at_i rfl rfl (not_not.mp kind).symm (not_supervisor_iff.mp equipment) (Nat.zero_le _) room
    dsimp only
    split
    · exact renewed.of_sameTable ((SameTable.refl _).disturb _ _ _)
    · exact renewed

end State.TableSound

open State (TableSound SameTable)

theorem eannOwner_keepsTable (p : Port) : KeepsTable p .eann (eannOwner p) := by
  intro f ability s h announces
  obtain ⟨equipment, source, room⟩ := announces rfl
  unfold eannOwner
  split
  · rename_i i e known
    exact h.relearn ability (State.find_entry known).1 equipment (room i e known)
  · exact h.learn ability ⟨equipment, source, room⟩ ‹_›

/-! ## CDCK, CUND, CLKS and WPAR (R37, R52, R174, R189) -/

theorem cdckConfigured_keepsTable (p : Port) : KeepsTable p .cdck cdckConfigured := by
  intro f a s h _
  obtain ⟨c, handler, tester⟩ := a
  refine .of_outcomes h ?_
  split
  · exact h
  · rename_i vacant
    split
    · exact h
    · rename_i checked
      simp only [Option.or_eq_none_iff] at checked
      obtain ⟨⟨checked_h, checked_t⟩, taken_h, taken_t⟩ := checked
      exact h.dock (not_not.mp vacant) checked_h checked_t taken_h taken_t

theorem cundOwner_keepsTable (p : Port) : KeepsTable p .cund cundOwner := by
  intro f c s h _
  refine .of_outcomes h ?_
  cases (s.cell c).state with
  | idle | paused | lost | fault => exact h.undock _ c
  | vacant | offer | confirm | preparing | running | stopping | closing => exact h

theorem clksOwner_keepsTable (p : Port) : KeepsTable p .clks clksOwner := by
  intro f a s h _
  cases a with
  | none => exact h
  | some m =>
    unfold clksOwner
    dsimp only
    split
    · exact h
    · exact (h.withClock (clock := { s.clock with minute := m, seconds := 0 }) (Nat.zero_le _)
        (Nat.le_of_not_lt ‹_›)).evaluateGates _

theorem wparOwner_keepsTable (p : Port) : KeepsTable p .wpar wparOwner := fun _ new _ h _ => h.setParameters new

/-- Every row of a request examines the request in service with an owner that keeps the table and the clock. -/
theorem exec_request_keepsTable {i : Instr} {p : Port} {r : Req} {mine : List Byte → Bool}
    (row : requestOf i = some (p, r, mine)) :
    ∃ (α : Type) (read : List Byte → Checked α) (owner : Owner α),
      (∀ s, exec i s = .next (s.request p r mine read owner)) ∧ KeepsTable p r owner := by
  cases changes : r.changesTable with
  | false =>
    obtain ⟨α, read, owner, runs, leaves⟩ := exec_request_leavesTable row changes
    exact ⟨α, read, owner, runs, leaves.keeps p r⟩
  | true =>
    cases i with
    | eann _ => cases row; exact ⟨_, _, _, fun _ => rfl, eannOwner_keepsTable _⟩
    | cdck _ =>
      cases row
      refine ⟨_, _, _, fun _ => rfl, fun f a s h other => ?_⟩
      exact .of_outcomes (h.of_sameTable (SameTable.refl s).of_records) (cdckConfigured_keepsTable _ f a s h other)
    | cund _ => cases row; exact ⟨_, _, _, fun _ => rfl, cundOwner_keepsTable _⟩
    | clks _ => cases row; exact ⟨_, _, _, fun _ => rfl, clksOwner_keepsTable _⟩
    | wpar _ => cases row; exact ⟨_, _, _, fun _ => rfl, wparOwner_keepsTable _⟩
    | _ => cases row <;> cases changes

/-! ## Every command and every step -/

namespace State.TableSound

variable {s : State}

theorem onPort (h : s.TableSound) (p : Port) (f : PortUnit → PortUnit) : (s.onPort p f).TableSound :=
  h.of_sameTable (SameTable.refl s).of_records

theorem resumeWaiting (h : s.TableSound) (f : Frame) : (s.resumeWaiting f).TableSound := by
  unfold State.resumeWaiting
  split
  · exact h.checkFields (lentConfigured_leavesTable.keeps hostPort .lent) _ nofun
  · exact h.checkFields (cdckConfigured_keepsTable hostPort) _ nofun
  · exact h

theorem endReattempt (h : s.TableSound) (reply : StoreReply) (f : Frame) :
    (s.endReattempt reply f).TableSound := by
  have ended := h.of_sameTable ((SameTable.refl s).of_records (t := { s with storeJob := none }))
  exact of_ite ((h.periodChanged (SameTable.refl s).of_records _).resumeWaiting f) (ended.answer _ _ _)

theorem endWrite (h : s.TableSound) (result : ReadBack) : (s.endWrite result).TableSound := by
  have written (store : Store) :=
    h.of_sameTable ((SameTable.refl s).of_records (t := { s with storeJob := none, store := store }))
  cases result <;> exact (written _).answer _ _ _

end State.TableSound

/-- Every command keeps the equipment table, its members and the clock. -/
theorem exec_keepsTable {i : Instr} {s t : State} (h : s.TableSound) (next : exec i s = .next t) : t.TableSound := by
  cases row : requestOf i with
  | some request =>
    obtain ⟨p, r, mine⟩ := request
    obtain ⟨α, read, owner, runs, keeps⟩ := exec_request_keepsTable row
    rw [runs] at next
    injection next with e
    exact e ▸ h.request keeps mine read
  | none =>
    cases i with
    | powerOnReset cut => injection next with e; exact e ▸ .powerOn s cut
    | startUpLoad reply => injection next with e; exact e ▸ .of_ite (h.settle.endLoad reply) h.settle
    | storeLoadReattempt reply =>
      injection next with e
      subst e
      split
      · exact h.settle.endReattempt reply _
      · exact h.settle
    | storeWrite result => injection next with e; exact e ▸ .of_ite (h.settle.endWrite result) h.settle
    | frameComplete p _ | lengthBelow6 p _ | gapAbort p | receivedByte p _ =>
      injection next with e
      exact e ▸ h.settle.onPort p _
    | frameSent p =>
      injection next with e
      exact e ▸ .of_ite ((h.settle.onPort p _).withDue _) (h.settle.onPort p _)
    | secondsTick => injection next with e; exact e ▸ h.settle.second
    | floorReset | minuteTick | entryStale _ | soakEnd _ | negotiationDeadlineExpiry _ | loadDeadlineExpiry _
      | settleDeadlineExpiry _ | closeDeadlineExpiry _ =>
      injection next with e
      exact e ▸ h.takeListed _
    | entryRemoval _ => injection next with e; exact e ▸ .of_ite h (h.takeListed _)
    | unknownCode p =>
      injection next with e
      subst e
      split
      · exact .of_ite (.of_ite (h.settle.onPort p _) (h.settle.onPort p _)) h.settle
      · exact h.settle
    | _ => cases row

/-- Settles O58: entries, members and clock are kept by every update that reaches them, and by all other work because it
leaves them as they are. -/
theorem equipmentTableAndClockKept : Obligations.EquipmentTableAndClockKept := by
  intro s t sound next
  have h := sound.table
  unfold step at next
  split at next
  · injection next with e
    subst e
    exact ⟨h.equipment, h.clock⟩
  · rename_i i rest _
    have front := h.of_sameTable ((SameTable.refl s).of_records (t := { s with pending := rest }))
    have kept := exec_keepsTable front next
    exact ⟨kept.equipment, kept.clock⟩

end Sys2Proof.Machine
end

section
/-! The seconds tick and the events that it lists (R27, R28, R99, R170, R173), the refresh of a sender's entry, and an
entry's way to STALE and out of the table (R24, R27 to R29). -/

namespace Sys2Proof.Machine

-- one theorem at a time: many at once, each with a thread of its own, can exceed the memory limit
set_option Elab.async false

/-! ## When an event of a tick is due -/

theorem Cell.negotiationExpired_iff {x : Cell} : x.negotiationExpired = true ↔
    (x.state = .offer ∨ x.state = .confirm) ∧ ∃ n, x.negotiation = some n ∧ n.deadline = 0 := by
  simp [Cell.negotiationExpired]

theorem Cell.loadExpired_iff {x : Cell} : x.loadExpired = true ↔
    x.state = .preparing ∧ ∃ q, x.preparation = some q ∧ q.loadDeadline = some 0 := by
  simp [Cell.loadExpired, Option.bind_eq_some_iff]

theorem Cell.settleExpired_iff {x : Cell} : x.settleExpired = true ↔
    x.state = .preparing ∧ ∃ q, x.preparation = some q ∧ q.settleDeadline = some 0 := by
  simp [Cell.settleExpired, Option.bind_eq_some_iff]

theorem Cell.closeExpired_iff {x : Cell} : x.closeExpired = true ↔
    x.state = .closing ∧ ∃ r, x.run = some r ∧ r.closeDeadline = some 0 := by
  simp [Cell.closeExpired, Option.bind_eq_some_iff]

theorem State.soakOver_iff {s : State} {c : CellNo} : s.soakOver c = true ↔
    (s.cell c).state = .preparing ∧ ∃ q l, (s.cell c).preparation = some q ∧ q.thermal = .soaking
      ∧ s.boundLot c = some l ∧ (s.product l).soakTime ≤ (s.cell c).thermal.soak := by
  cases bound : s.boundLot c with
  | none => simp [State.soakOver, bound]
  | some l => cases q : (s.cell c).preparation <;> simp [State.soakOver, bound, q, and_assoc]

theorem Entry.goesStale_iff {aging : Nat} {e : Entry} :
    e.goesStale aging = true ↔ aging ≠ 0 ∧ e.state = .present ∧ aging ≤ e.age := by
  simp [Entry.goesStale, and_assoc]

theorem Entry.goesAway_iff {aging : Nat} {e : Entry} :
    e.goesAway aging = true ↔ aging ≠ 0 ∧ e.membership = none ∧ 2 * aging ≤ e.age := by
  simp [Entry.goesAway, and_assoc]

/-! ## What a tick lists -/

/-- The ground of a listed event in the state after the tick. The minute tick's ground is the count before it, and no
tick brings a floor reset about. -/
def State.isDue (s : State) : Due → Prop
  | .negotiation c => (s.cell c).negotiationExpired = true
  | .load c => (s.cell c).loadExpired = true
  | .settle c => (s.cell c).settleExpired = true
  | .close c => (s.cell c).closeExpired = true
  | .soak c => s.soakOver c = true
  | .stale i => ∃ e, s.entry i = some e ∧ e.goesStale s.tables.parameters.aging = true
  | .removal i => ∃ e, s.entry i = some e ∧ e.goesAway s.tables.parameters.aging = true
  | .minute | .floorReset => False

theorem mem_ite_singleton {α : Type} {p : Prop} [Decidable p] {a b : α} :
    a ∈ (if p then [b] else []) ↔ p ∧ a = b := by
  split <;> simp [*]

theorem State.mem_cellDue {s : State} {c : CellNo} {d : Due} : d ∈ s.cellDue c ↔
    d ∈ [Due.negotiation c, .load c, .settle c, .close c, .soak c] ∧ s.isDue d := by
  simp only [State.cellDue, List.mem_append, mem_ite_singleton, List.mem_cons, List.not_mem_nil, or_false]
  constructor
  · rintro ((((⟨due, rfl⟩ | ⟨due, rfl⟩) | ⟨due, rfl⟩) | ⟨due, rfl⟩) | ⟨due, rfl⟩) <;> exact ⟨by simp, due⟩
  · rintro ⟨rfl | rfl | rfl | rfl | rfl, due⟩ <;> simp [show _ = true from due]

theorem State.mem_entryDue {s : State} {i : Position} {d : Due} : d ∈ s.entryDue i ↔
    d ∈ [Due.stale i, .removal i] ∧ s.isDue d := by
  unfold State.entryDue
  cases at_i : s.entry i with
  | none =>
    simp only [List.not_mem_nil, List.mem_cons, or_false, false_iff]
    rintro ⟨rfl | rfl, e, known, -⟩ <;> simp [at_i] at known
  | some e =>
    simp only [List.mem_append, mem_ite_singleton, List.mem_cons, List.not_mem_nil, or_false]
    constructor
    · rintro (⟨due, rfl⟩ | ⟨due, rfl⟩) <;> exact ⟨by simp, e, at_i, due⟩
    · rintro ⟨rfl | rfl, f, known, due⟩ <;>
        (obtain rfl := Option.some.inj (at_i.symm.trans known); simp [due])

/-- The events that a state gives ground for, cells first, and `ds` behind them. -/
def State.listed (s : State) (ds : List Due) : List Due :=
  (List.finRange 16).flatMap s.cellDue ++ (List.finRange 48).flatMap s.entryDue ++ ds

/-- They do not depend on what is listed already. -/
theorem State.listed_withDue (s : State) (ds xs : List Due) : ({ s with due := xs } : State).listed ds = s.listed ds :=
  rfl

/-- The list of a tick, read from the state that the tick leaves. -/
theorem State.second_due (s : State) :
    s.second.due = s.second.listed (if s.clock.seconds = 59 then [.minute] else []) :=
  (State.listed_withDue _ _ _).symm

/-- A tick lists an event exactly when it has its ground, and the minute tick at the wrap of 59. -/
theorem State.mem_second_due {s : State} {d : Due} :
    d ∈ s.second.due ↔ s.second.isDue d ∨ (d = .minute ∧ s.clock.seconds = 59) := by
  have wraps : d ∈ (if s.clock.seconds = 59 then [Due.minute] else []) ↔ d = .minute ∧ s.clock.seconds = 59 := by
    rw [mem_ite_singleton, and_comm]
  rw [State.second_due, State.listed, List.mem_append, List.mem_append, wraps]
  simp only [List.mem_flatMap, List.mem_finRange, true_and, State.mem_cellDue, State.mem_entryDue]
  refine or_congr_left ⟨?_, fun due => ?_⟩
  · rintro (⟨_, -, due⟩ | ⟨_, -, due⟩) <;> exact due
  · cases d with
    | negotiation c | load c | settle c | close c | soak c => exact .inl ⟨c, by simp, due⟩
    | stale i | removal i => exact .inr ⟨i, by simp, due⟩
    | minute | floorReset => exact due.elim

theorem exec_secondsTick {s : State} (quiet : s.Quiet) : exec .secondsTick s = .next s.second := by
  show Host.Outcome.next s.settle.second = _
  rw [State.settle_of_quiet quiet]

/-- Settles O18: the tick's records are read off, and each listed event is due by its ground. -/
theorem secondsTickCountsAndBringsAboutEvents : Obligations.SecondsTickCountsAndBringsAboutEvents := by
  intro s quiet
  have listed (d : Due) (other : d ≠ .minute) : d ∈ s.second.due ↔ s.second.isDue d := by
    simp [State.mem_second_due, other]
  refine ⟨s.second, exec_secondsTick quiet, rfl, rfl, s.second_entry, s.second_cell, ?_, ?_,
    fun i => ⟨?_, ?_⟩, fun c => ⟨?_, ?_, ?_, ?_, ?_⟩⟩
  · simp [State.mem_second_due, State.isDue]
  · simp [listed, State.isDue]
  · rw [listed _ (by simp)]
    exact exists_congr fun e => and_congr_right fun _ => Entry.goesStale_iff
  · rw [listed _ (by simp)]
    exact exists_congr fun e => and_congr_right fun _ => Entry.goesAway_iff
  · rw [listed _ (by simp)]
    exact Cell.negotiationExpired_iff
  · rw [listed _ (by simp)]
    exact Cell.loadExpired_iff
  · rw [listed _ (by simp)]
    exact Cell.settleExpired_iff
  · rw [listed _ (by simp)]
    exact Cell.closeExpired_iff
  · rw [listed _ (by simp)]
    exact State.soakOver_iff

/-! ## Refresh (R24) -/

/-- A request that R18 permits on an equipment port changes, EANN apart, no more of the table than ability records. -/
theorem Req.changesTable_of_permitted {r : Req} {p : Port} (equipment : supervisor p = false)
    (permitted : r.permitted p = true) (other : r ≠ .eann) : r.changesTable = false := by
  have host : ¬p = hostPort := by
    rintro rfl
    cases equipment
  cases r with
  | eann => exact absurd rfl other
  | cdck | cund | clks | wpar => simp [Req.permitted, host] at permitted
  | _ => rfl

/-- A known sender's request, good or refused, leaves the table as its refresh does. -/
theorem State.SameTable.request_sent {α : Type} {s : State} {p : Port} {r : Req} {mine : List Byte → Bool}
    {read : List Byte → Checked α} {owner : Owner α} {id : Id} {payload : List Byte} {j : Position} {e : Entry}
    (leaves : LeavesTable owner) (sends : s.Sends p r id payload j e) (other : r ≠ .eann)
    (fits : mine payload = true) : (s.refresh j e p).SameTable (s.request p r mine read owner) := by
  cases reads : read payload with
  | error n =>
    rw [State.request_sent_error sends other fits reads]
    exact ((State.SameTable.refl _).reportReturn _ _).answer _ _ _
  | ok a =>
    obtain ⟨f, -, carried⟩ := State.request_sent (owner := owner) sends other fits reads
    rw [carried]
    exact ((leaves f a _).reportReturn _ _).answer _ _ _

/-! ## STALE and removal (R27 to R29) -/

/-- The command of the one listed event takes it. -/
theorem State.takeListed_one {s : State} {d : Due} (listed : s.due = [d]) :
    s.takeListed d = { s with due := [] }.takeDue d := by
  simp [State.takeListed, listed]

theorem State.goStale_of_aged {s : State} {i : Position} {e : Entry} (at_i : s.entry i = some e)
    (aged : e.goesStale s.tables.parameters.aging = true) :
    s.goStale i = match e.membership with
      | some c => (s.setEntry i (some { e with state := .stale })).disturb none c .stale
      | none => s.setEntry i (some { e with state := .stale }) := by
  unfold State.goStale
  rw [at_i]
  exact if_pos aged

theorem State.removeEntry_of_stale {s : State} {i : Position} {e : Entry} (at_i : s.entry i = some e)
    (stale : e.state = .stale) :
    s.removeEntry i = if e.goesAway s.tables.parameters.aging = true then s.setEntry i none else s := by
  simp only [State.removeEntry, at_i, stale, true_and]

/-- Settles O21: every request but EANN leaves its sender's entry as the refresh made it, and the two events of a silent
entry do what `State.goStale` and `State.removeEntry` do. -/
theorem entryRefreshedElseGoesStaleThenAway : Obligations.EntryRefreshedElseGoesStaleThenAway := by
  refine ⟨?_, ?_, ?_⟩
  · intro i s p r mine id payload j e row fits other sends
    have ⟨⟨_, _, equipment, permitted, _, _⟩, found, _⟩ := sends
    obtain ⟨α, read, owner, runs, leaves⟩ :=
      exec_request_leavesTable row (Req.changesTable_of_permitted equipment permitted other)
    have same := State.SameTable.request_sent (read := read) leaves sends other fits
    obtain ⟨e', at_j, standing⟩ := same.to_entry (State.setEntry_entry_same s j _)
    obtain ⟨id', port, state, age, membership, kind⟩ := Standing.mk.inj standing
    exact ⟨_, e', runs s, at_j, id'.trans (State.find_entry found).2, state, age, port, membership, kind⟩
  · intro s i e listed at_i present aging aged
    show Host.Outcome.next (s.takeListed (.stale i)) = _
    rw [State.takeListed_one listed]
    exact congrArg _ (State.goStale_of_aged (s := { s with due := [] }) at_i
      (Entry.goesStale_iff.mpr ⟨aging, present, aged⟩))
  · intro s i e listed at_i stale aging aged
    have command : exec (.entryRemoval i) s = .next ({ s with due := [] }.removeEntry i) := by
      show Host.Outcome.next (if Due.stale i ∈ s.due then s else s.takeListed (.removal i)) = _
      rw [if_neg (by simp [listed]), State.takeListed_one listed]
      rfl
    rw [command, State.removeEntry_of_stale (s := { s with due := [] }) at_i stale]
    cases membership : e.membership with
    | none => rw [if_pos (Entry.goesAway_iff.mpr ⟨aging, membership, aged⟩)]; rfl
    | some c =>
      have stays : ¬e.goesAway s.tables.parameters.aging = true := by simp [Entry.goesAway_iff, membership]
      rw [if_neg stays]

end Sys2Proof.Machine
end

section
/-! Negotiation: entering OFFER, a member's return (R24, R29, R38, R51), EANN (R25, R26), EABL and ECNF (R39 to R43). -/

namespace Sys2Proof.Machine

-- one theorem at a time: many at once, each with a thread of its own, can exceed the memory limit
set_option Elab.async false

/-! ## OFFER and returns (R38, R51) -/

theorem State.query_some (s : State) (c : CellNo) (id : Id) : s.query c (some id) = s.notifyEquip id (.nabq id c) := rfl

theorem State.confirm_some (s : State) (c : CellNo) (id : Id) (cap : Capability) :
    s.confirm c (some id) cap = s.notifyEquip id (.ncnf id c cap) := rfl

/-- A cell that moves is shown as it then stands (R36). -/
theorem State.moveCell_notify (s : State) (c : CellNo) (f : Cell → Cell) {x : Cell} (moved : f (s.cell c) = x) :
    s.moveCell c f = (s.setCell c x).notify 0 (.ncel c x.state x.mode x.fault x.bound) := by
  rw [State.moveCell_eq, moved, State.ncel, State.setCell_cell_same]
  rfl

theorem Entry.returnsTo_eq_some {e : Entry} {c : CellNo} :
    e.returnsTo = some c ↔ e.state = .stale ∧ e.membership = some c := by
  simp [Entry.returnsTo]

theorem State.isPresent_iff {s : State} {id : Id} :
    s.isPresent id = true ↔ ∃ e, s.equip id = some e ∧ e.state = .present := by
  cases known : s.equip id <;> simp [State.isPresent, known]

theorem State.membersPresent_iff {s : State} {c : CellNo} : s.membersPresent c = true ↔
    ∃ h t x y, (s.cell c).handler = some h ∧ (s.cell c).tester = some t ∧ s.equip h = some x ∧ s.equip t = some y
      ∧ x.state = .present ∧ y.state = .present := by
  have one (m : Option Id) : (m.map s.isPresent).getD false = true ↔
      ∃ id e, m = some id ∧ s.equip id = some e ∧ e.state = .present := by
    cases m <;> simp [State.isPresent_iff]
  rw [State.membersPresent, Bool.and_eq_true, one, one]
  constructor
  · rintro ⟨⟨h, x, handler, at_h, present_h⟩, t, y, tester, at_t, present_t⟩
    exact ⟨h, t, x, y, handler, tester, at_h, at_t, present_h, present_t⟩
  · rintro ⟨h, t, x, y, handler, tester, at_h, at_t, present_h, present_t⟩
    exact ⟨⟨h, x, handler, at_h, present_h⟩, t, y, tester, at_t, present_t⟩

section memberReturn
variable {s : State} {c : CellNo} {id : Id} {n : Negotiation}

theorem State.memberReturn_lost (state : (s.cell c).state = .lost) :
    s.memberReturn c id = if s.membersPresent c then s.enterOffer c else s := by
  simp [State.memberReturn, state]

theorem State.memberReturn_offer (state : (s.cell c).state = .offer) (negotiation : (s.cell c).negotiation = some n) :
    s.memberReturn c id =
      if ((s.cell c).handler = some id ∧ n.handlerReported) ∨ ((s.cell c).tester = some id ∧ n.testerReported) then s
      else s.notifyEquip id (.nabq id c) := by
  simp [State.memberReturn, state, negotiation, State.query_some]

theorem State.memberReturn_confirm {cap : Capability} (state : (s.cell c).state = .confirm)
    (negotiation : (s.cell c).negotiation = some n) (proposed : n.proposed = some cap) :
    s.memberReturn c id =
      if ((s.cell c).handler = some id ∧ n.handlerAccepted) ∨ ((s.cell c).tester = some id ∧ n.testerAccepted) then s
      else s.notifyEquip id (.ncnf id c cap) := by
  simp [State.memberReturn, state, negotiation, proposed, State.confirm_some]

theorem State.memberReturn_other (lost : (s.cell c).state ≠ .lost) (offer : (s.cell c).state ≠ .offer)
    (confirm : (s.cell c).state ≠ .confirm) : s.memberReturn c id = s := by
  unfold State.memberReturn
  dsimp only
  split
  · exact absurd ‹_› lost
  · exact absurd ‹_› offer
  · exact absurd ‹_› confirm
  · rfl

end memberReturn

/-- Settles O23: OFFER's parts in their order, and a return by the cell's state. -/
theorem offerNegotiatesAfresh : Obligations.OfferNegotiatesAfresh := by
  refine ⟨fun s c h t => ?_, fun s e c id => ?_, fun s c id => ?_⟩
  · intro offered shown asked
    have moved : s.moveCell c (fun x =>
        { x with
          state := .offer, fault := none,
          negotiation := some (Negotiation.fresh h t s.tables.parameters.negotiation) }) = shown :=
      State.moveCell_notify s c _ rfl
    have members : shown.cell c = offered := by simp [shown]
    have asked_cell : asked.cell c = offered := by
      have ports : shown.OnlyPorts asked := by
        simp only [asked]
        split
        · exact .refl _
        · exact State.onlyPorts_notifyMember _ _ _
      rw [ports]
      exact members
    have first : (if h = true then shown else shown.query c (shown.cell c).handler) = asked := by
      rw [members]
      rfl
    unfold State.enterOffer
    dsimp only
    rw [moved, first, asked_cell]
    rfl
  · exact ⟨Entry.returnsTo_eq_some, rfl, rfl, State.membersPresent_iff⟩
  · refine ⟨fun lost present => ?_, fun lost absent => ?_, fun n offer negotiation handler other => ?_,
      fun n offer negotiation tester other => ?_, fun n cap confirm negotiation proposed handler other => ?_,
      fun n cap confirm negotiation proposed tester other => ?_, State.memberReturn_other⟩
    · rw [State.memberReturn_lost lost, if_pos present]
    · rw [State.memberReturn_lost lost, if_neg (by simp [absent])]
    · rw [State.memberReturn_offer offer negotiation]
      simp [handler, other]
    · rw [State.memberReturn_offer offer negotiation]
      simp [tester, other]
    · rw [State.memberReturn_confirm confirm negotiation proposed]
      simp [handler, other]
    · rw [State.memberReturn_confirm confirm negotiation proposed]
      simp [tester, other]

/-! ## EANN (R25, R26) -/

theorem State.freePosition_none {s : State} (full : ∀ i, s.entry i ≠ none) : s.freePosition = none := by
  simpa [State.freePosition] using full

/-- The lowest free position is the one found. -/
theorem State.freePosition_some {s : State} {i : Position} (free : s.entry i = none)
    (lowest : ∀ j : Position, j.val < i.val → s.entry j ≠ none) : s.freePosition = some i := by
  rw [State.freePosition, List.find?_eq_some_iff_getElem]
  refine ⟨by simp [free], i.val, by simp, by simp, fun j below => ?_⟩
  simpa [← Option.ne_none_iff_isSome] using lowest ⟨j, by omega⟩ below

/-- An EANN that passes its sender's check is answered with what its owner makes of it. -/
theorem exec_eann {s : State} {p : Port} {id : Id} {a : Ability} (range : a.InRange)
    (speaks : s.Speaks p .eann id a.announced)
    (room : ∀ i e, s.find id = some (i, e) → e.port = p ∨ s.portCount p < 4) :
    ∃ f : Frame, f.source = id
      ∧ exec (.eann p) s = .next ((eannOwner p f a s).1.answer p (some .eann) (eannOwner p f a s).2) := by
  obtain ⟨f, source, carried⟩ := State.request_announced (mine := anyPayload) (owner := eannOwner p) speaks rfl
    (readEann_bytes range) room
  exact ⟨f, source, congrArg Host.Outcome.next carried⟩

theorem eannOwner_unknown {s : State} {f : Frame} (unknown : s.find f.source = none) (p : Port) (a : Ability) :
    eannOwner p f a s = s.learn p f.source a := by
  simp [eannOwner, unknown]

theorem eannOwner_known {s : State} {f : Frame} {i : Position} {e : Entry} (known : s.find f.source = some (i, e))
    (p : Port) (a : Ability) : eannOwner p f a s = s.relearn p i e a := by
  simp [eannOwner, known]

section relearn
variable {s : State} {p : Port} {i : Position} {e : Entry} {a : Ability} (kind : e.ability.kind = a.kind)
include kind

/-- A known entry of the announced kind is renewed (R26). -/
theorem State.relearn_free (free : e.membership = none) : s.relearn p i e a =
    (s.setEntry i (some { e with age := 0, state := .present, port := p, ability := a }), .good (num1 i ++ [2])) := by
  obtain ⟨id, port, state, age, membership, ability⟩ := e
  cases free
  exact if_neg (not_not.mpr kind)

/-- The renewal of a member is told to its cell (R29). -/
theorem State.relearn_member {c : CellNo} (member : e.membership = some c) : s.relearn p i e a =
    ((s.setEntry i (some { e with age := 0, state := .present, port := p, ability := a })).disturb (some p) c
      .reannounce, .good (num1 i ++ [2])) := by
  obtain ⟨id, port, state, age, membership, ability⟩ := e
  cases member
  exact if_neg (not_not.mpr kind)

end relearn

/-- Settles O43, by whether the id is known and what room there is. -/
theorem announcementMakesOrRenewsEntry : Obligations.AnnouncementMakesOrRenewsEntry := by
  intro s p id a range speaks
  have learns (unknown : s.find id = none) :
      exec (.eann p) s = .next ((s.learn p id a).1.answer p (some .eann) (s.learn p id a).2) := by
    obtain ⟨f, rfl, runs⟩ := exec_eann range speaks (by simp [unknown])
    rw [runs, eannOwner_unknown unknown]
  refine ⟨fun unknown full => ?_, fun i unknown free lowest room => ?_, fun i e known room => ?_⟩
  · have refused : s.learn p id a = (s, .check .tableFull 0) := by
      unfold State.learn
      obtain full | full := full
      · rw [State.freePosition_none full]
      · split
        · exact if_neg (Nat.not_lt.mpr full)
        · rfl
    rw [learns unknown, refused]
  · have made : s.learn p id a =
        (s.setEntry i (some ⟨id, p, .present, 0, none, a⟩), .good (num1 i ++ [0x01])) := by
      unfold State.learn
      rw [State.freePosition_some free lowest]
      exact if_pos room
    rw [learns unknown, made]
  · intro renewed
    have runs : exec (.eann p) s = .next ((s.relearn p i e a).1.answer p (some .eann) (s.relearn p i e a).2) := by
      obtain ⟨f, rfl, runs⟩ := exec_eann range speaks fun j g found => by
        obtain ⟨rfl, rfl⟩ := Prod.mk.inj (Option.some.inj (known.symm.trans found))
        exact room
      rw [runs, eannOwner_known known]
    refine ⟨fun other => ?_, fun same free => ?_, fun c same member => ?_⟩
    · have refused : s.relearn p i e a = (s, .check .kindMismatch id) := by
        rw [← (State.find_entry known).2]
        exact if_pos other
      rw [runs, refused]
    · rw [runs, State.relearn_free same free]
    · rw [runs, State.relearn_member same member]

end Sys2Proof.Machine
end

section
/-! EABL and ECNF (R39 to R43): what their owners make of a negotiation, the proposal, and formation. -/

namespace Sys2Proof.Machine

-- one theorem at a time: many at once, each with a thread of its own, can exceed the memory limit
set_option Elab.async false

/-! ## EABL (R39, R40) -/

section eabl
variable {s : State} {f : Frame} {c : CellNo} {a : Ability}

theorem eablOwner_stranger (stranger : ¬((s.cell c).handler = some f.source ∨ (s.cell c).tester = some f.source)) :
    eablOwner f (c, a) s = (s, .check .unknownCell (arg c.val)) := by
  have none_of : (s.cell c).hasMember f.source = false := by
    rw [← Bool.not_eq_true, Cell.hasMember_eq]
    exact stranger
  simp [eablOwner, none_of]

variable (member : (s.cell c).handler = some f.source ∨ (s.cell c).tester = some f.source) {e : Entry}
  (known : s.equip f.source = some e)
include member known

theorem eablOwner_otherKind (other : e.ability.kind ≠ a.kind) :
    eablOwner f (c, a) s = (s, .check .kindMismatch f.source) := by
  simp [eablOwner, Cell.hasMember_eq.mpr member, known, other]

variable (kind : e.ability.kind = a.kind)
include kind

theorem eablOwner_elsewhere (offer : (s.cell c).state ≠ .offer) (confirm : (s.cell c).state ≠ .confirm) :
    eablOwner f (c, a) s = (s, .check .cellState (arg c.val)) := by
  have passed : ¬((s.equip f.source).map fun e => e.ability.kind) ≠ some a.kind := by simp [known, kind]
  unfold eablOwner
  dsimp only
  rw [if_neg (by simp [Cell.hasMember_eq.mpr member]), if_neg passed]
  split
  · exact absurd ‹_› offer
  · exact absurd ‹_› confirm
  · rfl

/-- In OFFER the sender's report is marked, and the second report makes the proposal. -/
theorem eablOwner_offer {n : Negotiation} (offer : (s.cell c).state = .offer)
    (negotiation : (s.cell c).negotiation = some n) : eablOwner f (c, a) s =
      let marked := n.report (decide ((s.cell c).handler = some f.source))
      let t := (s.setAbility f.source a).onCell c fun x => { x with negotiation := some marked }
      (if marked.handlerReported ∧ marked.testerReported then t.reported c else t, .good []) := by
  simp [eablOwner, Cell.hasMember_eq.mpr member, known, kind, offer, negotiation]

/-- In CONFIRM the cell is offered again, with the sender's report marked. -/
theorem eablOwner_confirm {n : Negotiation} (confirm : (s.cell c).state = .confirm)
    (negotiation : (s.cell c).negotiation = some n) : eablOwner f (c, a) s =
      ((s.setAbility f.source a).enterOffer c (decide ((s.cell c).handler = some f.source))
        !(decide ((s.cell c).handler = some f.source)), .good []) := by
  simp [eablOwner, Cell.hasMember_eq.mpr member, known, kind, confirm, negotiation]

end eabl

/-- The ability record of a refreshed sender is replaced where its entry stands (R39). -/
theorem State.setAbility_refresh {s : State} {id : Id} {i : Position} {e : Entry} (found : s.find id = some (i, e))
    (p : Port) (a : Ability) : (s.refresh i e p).setAbility id a =
      (s.refresh i e p).setEntry i (some { e with age := 0, state := .present, port := p, ability := a }) := by
  have refreshed := State.find_setEntry (f := { e with age := 0, state := .present, port := p }) found
    (State.find_entry found).2
  exact State.onEquip_of_find _ refreshed

/-! ## The proposal and formation (R40, R42) -/

section reported
variable {s : State} {c : CellNo} {h : HandlerAbility} {t : TesterAbility}
  (handler : s.handlerAbility c = some h) (tester : s.testerAbility c = some t)
include handler tester

/-- Without a common site the negotiation fails. -/
theorem State.reported_noSites (empty : h.sites &&& t.sites = 0) : s.reported c = s.enterFault c .noSites := by
  unfold State.reported
  rw [handler, tester]
  exact if_pos empty

/-- With one the cell is in CONFIRM, and both members are told the proposal. -/
theorem State.reported_proposes {n : Negotiation} (sites : h.sites &&& t.sites ≠ 0)
    (negotiation : (s.cell c).negotiation = some n) : s.reported c =
      ((s.setCell c
        { s.cell c with
          state := .confirm
          negotiation := some
            { n with
              handlerAccepted := false, testerAccepted := false, proposed := some (propose h t)
              deadline := s.tables.parameters.negotiation } }).ncel c).notifyMembers c
        fun id => .ncnf id c (propose h t) := by
  have split : ¬(propose h t).sites = 0 := sites
  simp only [State.reported, handler, tester, if_neg split, State.moveCell_eq, negotiation, Option.map_some]

end reported

theorem Mode.takes_iff {m : Mode} {k : LotClass} : m.takes k = true ↔
    (m = .production ∧ k = .production) ∨ (m = .engineering ∧ k = .engineering) := by
  cases m <;> cases k <;> simp [Mode.takes]

/-- What R42 asks of a product, part by part. -/
theorem suits_iff {m : Mode} {cap : Capability} {k : LotClass} {q : Product} : suits m cap k q = true ↔
    ((m = .production ∧ k = .production) ∨ (m = .engineering ∧ k = .engineering))
      ∧ cap.families.getLsbD q.family.val = true ∧ cap.bandMin ≤ q.setPoint ∧ q.setPoint ≤ cap.bandMax
      ∧ (q.kit = cap.kit ∨ q.kit = 0) ∧ q.options &&& cap.options = q.options := by
  simp [suits, Mode.takes_iff, subset, and_assoc]

section formed
variable (s : State) (src : Option Port) (c : CellNo) (cap : Capability)

/-- The cell once it has its common capability (R42). -/
def Cell.formed (x : Cell) (cap : Capability) : Cell :=
  { x with common := some cap, active := cap.sites, thermal := ⟨none, false, 0⟩, failed := none, negotiation := none }

theorem State.formed_eq : s.formed src c cap =
    match (s.setCell c ((s.cell c).formed cap)).boundLot c with
    | none => ((s.setCell c ((s.cell c).formed cap)).moveCell c fun x => { x with state := .idle }).serve src c
    | some l =>
      if (s.setCell c ((s.cell c).formed cap)).lotSuits l c then
        ((s.setCell c ((s.cell c).formed cap)).prepare src c).serve src c
      else (s.setCell c ((s.cell c).formed cap)).unbind src c l.id fun x => { x with state := .idle } := rfl

/-- Formation keeps the bound lot. -/
theorem State.boundLot_formed : (s.setCell c ((s.cell c).formed cap)).boundLot c = s.boundLot c := by
  rw [State.boundLot, State.setCell_cell_same]
  rfl

theorem State.lotSuits_formed (l : Lot) : (s.setCell c ((s.cell c).formed cap)).lotSuits l c =
    suits (s.cell c).mode cap l.cls (s.product l) := by
  simp [State.lotSuits, Cell.formed]

theorem State.formed_unbound (unbound : (s.cell c).bound = none) : s.formed src c cap =
    ((s.setCell c { (s.cell c).formed cap with state := .idle }).ncel c).serve src c := by
  have nothing : s.boundLot c = none := by simp [State.boundLot, unbound]
  rw [State.formed_eq, State.boundLot_formed, nothing]
  simp [State.moveCell_eq]

theorem State.formed_bound {l : Lot} (bound : s.boundLot c = some l) : s.formed src c cap =
    if suits (s.cell c).mode cap l.cls (s.product l) then
      ((s.setCell c ((s.cell c).formed cap)).prepare src c).serve src c
    else (s.setCell c ((s.cell c).formed cap)).unbind src c l.id fun x => { x with state := .idle } := by
  rw [State.formed_eq, State.boundLot_formed, bound]
  simp only [State.lotSuits_formed]

end formed

/-! ## ECNF (R41) -/

section ecnf
variable {s : State} {p : Port} {f : Frame} {c : CellNo} {echo : Capability}

theorem ecnfOwner_stranger (stranger : ¬((s.cell c).handler = some f.source ∨ (s.cell c).tester = some f.source)) :
    ecnfOwner p f (c, echo) s = (s, .check .unknownCell (arg c.val)) := by
  have none_of : (s.cell c).hasMember f.source = false := by
    rw [← Bool.not_eq_true, Cell.hasMember_eq]
    exact stranger
  simp [ecnfOwner, none_of]

variable (member : (s.cell c).handler = some f.source ∨ (s.cell c).tester = some f.source)
include member

theorem ecnfOwner_elsewhere (other : (s.cell c).state ≠ .confirm) :
    ecnfOwner p f (c, echo) s = (s, .check .cellState (arg c.val)) := by
  unfold ecnfOwner
  dsimp only
  rw [if_neg (by simp [Cell.hasMember_eq.mpr member])]
  split
  · exact absurd ‹_› other
  · rfl

/-- In CONFIRM the echo of the proposal is an acceptance, and the second forms the cell. -/
theorem ecnfOwner_confirm {n : Negotiation} (confirm : (s.cell c).state = .confirm)
    (negotiation : (s.cell c).negotiation = some n) : ecnfOwner p f (c, echo) s =
      if n.proposed ≠ some echo then (s.enterFault c .mismatch, .check .inconsistent (arg c.val))
      else
        let marked := n.accept (decide ((s.cell c).handler = some f.source))
        let t := s.onCell c fun x => { x with negotiation := some marked }
        (if marked.handlerAccepted ∧ marked.testerAccepted then t.formed (some p) c echo else t, .good []) := by
  simp [ecnfOwner, Cell.hasMember_eq.mpr member, confirm, negotiation]

end ecnf

/-! ## O44 -/

/-- Settles O44: EABL and ECNF through the examination of a known sender's request, the proposal, and formation. -/
theorem negotiationReportsAndAcceptances : Obligations.NegotiationReportsAndAcceptances := by
  refine ⟨?_, ?_, ?_, ?_⟩
  · intro s p id i e c a range sends u x handler answers member told
    have found : s.find id = some (i, e) := sends.2.1
    obtain ⟨f, rfl, carried⟩ := State.request_sent (mine := anyPayload) (owner := eablOwner) sends (by simp) rfl
      (readEabl_bytes c range)
    have owned {v : State} {reply : Reply} (out : eablOwner f (c, a) u = (v, reply)) : answers v reply := by
      rw [out] at carried
      exact congrArg Host.Outcome.next carried
    have known : u.equip f.source = some { e with age := 0, state := .present, port := p } :=
      State.equip_of_find (State.find_setEntry found (State.find_entry found).2)
    have replaced : u.setAbility f.source a = told := State.setAbility_refresh found p a
    refine ⟨fun stranger => owned (eablOwner_stranger stranger),
      fun one other => owned (eablOwner_otherKind one known other), fun one kind => ?_⟩
    refine ⟨fun offer confirm => owned (eablOwner_elsewhere one known kind offer confirm),
      fun n offer negotiation => ?_, fun n confirm negotiation => owned ?_⟩
    · intro marked v
      have out : eablOwner f (c, a) u =
          (if marked.handlerReported = true ∧ marked.testerReported = true then v.reported c else v, .good []) := by
        rw [eablOwner_offer (s := u) one known kind offer negotiation, replaced]
        rfl
      refine ⟨fun both => owned ?_, fun one => owned ?_⟩
      · rw [out, if_pos both]
      · rw [out, if_neg one]
    · rw [eablOwner_confirm (s := u) one known kind confirm negotiation, replaced]
      rfl
  · intro s c h t handler tester cap
    exact ⟨State.reported_noSites handler tester, fun n sites => State.reported_proposes handler tester sites⟩
  · intro s p id i e c cap range sends u x answers member
    obtain ⟨f, rfl, carried⟩ := State.request_sent (mine := anyPayload) (owner := ecnfOwner p) sends (by simp) rfl
      (readEcnf_bytes c range)
    have owned {v : State} {reply : Reply} (out : ecnfOwner p f (c, cap) u = (v, reply)) : answers v reply := by
      rw [out] at carried
      exact congrArg Host.Outcome.next carried
    refine ⟨fun stranger => owned (ecnfOwner_stranger stranger),
      fun one other => owned (ecnfOwner_elsewhere one other), fun n one confirm negotiation => ?_⟩
    · intro marked v
      have decided : ecnfOwner p f (c, cap) u =
          if n.proposed ≠ some cap then (u.enterFault c .mismatch, .check .inconsistent (arg c.val))
          else (if marked.handlerAccepted = true ∧ marked.testerAccepted = true then v.formed (some p) c cap else v,
            .good []) := by
        rw [ecnfOwner_confirm (s := u) one confirm negotiation]
        simp only [Negotiation.accept, decide_eq_true_eq]
        rfl
      refine ⟨fun differs => owned ?_, fun same waits => owned ?_, fun same both => owned ?_⟩
      · rw [decided, if_pos differs]
        rfl
      · rw [decided, if_neg (not_not.mpr same), if_neg waits]
      · rw [decided, if_neg (not_not.mpr same), if_pos both]
  · intro s src c cap formed v
    refine ⟨s.formed_unbound src c cap, fun l bound => ?_⟩
    intro q fits
    have decided := s.formed_bound src c cap bound
    refine ⟨fun fit => ?_, fun unfit => ?_⟩
    · rw [decided, if_pos (suits_iff.mpr fit)]
      rfl
    · rw [decided, if_neg (fun suited => unfit (suits_iff.mp suited))]
      rfl

end Sys2Proof.Machine
end

section
/-! Lots, cells, queue, holds and shipments in agreement (3.2, R57, R59, R74, R137): what each update of the records
leaves of it, with one cell set aside while its work passes from one state to the next. -/

namespace Sys2Proof.Machine

-- one theorem at a time: many at once, each with a thread of its own, can exceed the memory limit
set_option Elab.async false

/-! ## A cell by itself (3.2) -/

/-- What a formed cell has in each of its states: members, a common capability, and no negotiation or fault. -/
structure Cell.Base (x : Cell) : Prop where
  handler     : x.handler ≠ none
  tester      : x.tester ≠ none
  negotiation : x.negotiation = none
  fault       : x.fault = none
  common      : x.common ≠ none
  sites       : subset x.active ((x.common.map Capability.sites).getD 0) = true

/-- A formed cell whose work in hand has ended and whose next state is still to be set: it has no record of a state. -/
structure Cell.Ready (x : Cell) : Prop where
  base        : x.Base
  preparation : x.preparation = none
  run         : x.run = none

/-- A cell has the parts of its state, and its bound lot is unheld in RUNNING and held in PAUSED. -/
structure Cell.Fits (x : Cell) (unheld : Id → Bool) : Prop where
  sound   : x.Sound
  running : x.state = .running → ∀ id, x.bound = some id → unheld id = true
  paused  : x.state = .paused → ∀ id, x.bound = some id → unheld id = false

/-- The states of a cell with a common capability and no negotiation. -/
def CellState.formed (x : CellState) : Prop := x ∈ [CellState.idle, .preparing, .running, .stopping, .closing, .paused]

section cell
variable {x y : Cell} {u v : Id → Bool}

theorem Cell.Sound.base (h : x.Sound) (formed : x.state.formed) : x.Base where
  handler := by rw [Ne, h.handler]; intro e; simp [e, CellState.formed] at formed
  tester := by rw [Ne, h.tester]; intro e; simp [e, CellState.formed] at formed
  negotiation := by
    have none_of : ¬x.negotiation.isSome = true := by
      rw [h.negotiation]
      rintro (e | e) <;> simp [e, CellState.formed] at formed
    simpa using none_of
  fault := by
    have none_of : ¬x.fault.isSome = true := by
      rw [h.fault]
      intro e
      simp [e, CellState.formed] at formed
    simpa using none_of
  common := h.formed formed
  sites := h.sites

/-- The parts that tell the states of a formed cell apart (3.2). -/
theorem Cell.Base.sound (h : x.Base) (formed : x.state.formed)
    (preparation : x.preparation.isSome = true ↔ x.state = .preparing)
    (run : x.run.isSome = true ↔ x.state = .running ∨ x.state = .stopping ∨ x.state = .closing)
    (fits : ∀ r, x.run = some r → r.Fits x.state) (bound : x.bound = none ↔ x.state = .idle) : x.Sound where
  handler := iff_of_false h.handler (by rintro e; simp [e, CellState.formed] at formed)
  tester := iff_of_false h.tester (by rintro e; simp [e, CellState.formed] at formed)
  negotiation := iff_of_false (by simp [h.negotiation]) (by rintro (e | e) <;> simp [e, CellState.formed] at formed)
  proposed := by simp [h.negotiation]
  preparation := preparation
  run := run
  fits := fits
  fault := iff_of_false (by simp [h.fault]) (by rintro e; simp [e, CellState.formed] at formed)
  working := by
    intro working unbound
    simp [bound.mp unbound] at working
  free := by
    rintro (e | e)
    · simp [e, CellState.formed] at formed
    · exact bound.mpr e
  formed := fun _ => h.common
  sites := h.sites

/-- The parts of `Cell.Base` do not see the state, nor the records of a state, nor the lot. -/
theorem Cell.Base.of_same (h : x.Base) (handler : y.handler = x.handler := by rfl)
    (tester : y.tester = x.tester := by rfl) (negotiation : y.negotiation = x.negotiation := by rfl)
    (fault : y.fault = x.fault := by rfl) (common : y.common = x.common := by rfl)
    (active : y.active = x.active := by rfl) : y.Base where
  handler := handler ▸ h.handler
  tester := tester ▸ h.tester
  negotiation := negotiation ▸ h.negotiation
  fault := fault ▸ h.fault
  common := common ▸ h.common
  sites := by rw [common, active]; exact h.sites

theorem Cell.Sound.preparation_none (h : x.Sound) (other : x.state ≠ .preparing) : x.preparation = none := by
  simpa using h.preparation.not.mpr other

theorem Cell.Sound.run_none (h : x.Sound) (other : x.state ≠ .running ∧ x.state ≠ .stopping ∧ x.state ≠ .closing) :
    x.run = none := by
  have none_of : ¬x.run.isSome = true := by
    rw [h.run]
    tauto
  simpa using none_of

theorem Cell.Ready.idle (h : x.Ready) (unbound : x.bound = none) : ({ x with state := .idle } : Cell).Sound :=
  h.base.of_same.sound (by simp [CellState.formed]) (by simp [h.preparation]) (by simp [h.run]) (by simp [h.run])
    (by simpa using unbound)

theorem Cell.Ready.paused (h : x.Ready) (bound : x.bound ≠ none) : ({ x with state := .paused } : Cell).Sound :=
  h.base.of_same.sound (by simp [CellState.formed]) (by simp [h.preparation]) (by simp [h.run]) (by simp [h.run])
    (by simpa using bound)

theorem Cell.Ready.preparing (h : x.Ready) (bound : x.bound ≠ none) (q : Preparation) :
    ({ x with state := .preparing, preparation := some q } : Cell).Sound :=
  h.base.of_same.sound (by simp [CellState.formed]) (by simp) (by simp [h.run]) (by simp [h.run])
    (by simpa using bound)

theorem Cell.Ready.running (h : x.Ready) (bound : x.bound ≠ none) {r : Run} (fits : r.Fits .running) :
    ({ x with run := some r, state := .running } : Cell).Sound :=
  h.base.of_same.sound (by simp [CellState.formed]) (by simp [h.preparation]) (by simp) (by simpa using fits)
    (by simpa using bound)

/-- In the states of a run the run may go on in another of them, with the parts of that state. -/
theorem Cell.Sound.runs (h : x.Sound) (running : x.state = .running ∨ x.state = .stopping ∨ x.state = .closing)
    {r : Run} {st : CellState} (next : st = .running ∨ st = .stopping ∨ st = .closing) (fits : r.Fits st) :
    ({ x with run := some r, state := st } : Cell).Sound := by
  have formed : x.state.formed := by
    rcases running with e | e | e <;> simp [e, CellState.formed]
  have none_of : x.preparation = none := h.preparation_none (by rcases running with e | e | e <;> simp [e])
  have bound : x.bound ≠ none := h.working (by rcases running with e | e | e <;> simp [e])
  refine (h.base formed).of_same.sound ?_ ?_ ?_ ?_ ?_
  · rcases next with rfl | rfl | rfl <;> simp [CellState.formed]
  · rcases next with rfl | rfl | rfl <;> simp [none_of]
  · simpa using next
  · rintro _ ⟨⟩
    exact fits
  · rcases next with rfl | rfl | rfl <;> simp [bound]

/-- A cell that is neither RUNNING nor PAUSED asks nothing of its lot's holds. -/
theorem Cell.Fits.of_sound (h : x.Sound) (running : x.state ≠ .running) (paused : x.state ≠ .paused) : x.Fits u :=
  ⟨h, fun e => absurd e running, fun e => absurd e paused⟩

/-- What a cell asks of its lot's holds stays when they stay. -/
theorem Cell.Fits.of_unheld (h : x.Fits u) (same : ∀ id, x.bound = some id → v id = u id) : x.Fits v :=
  ⟨h.sound, fun e id bound => (same id bound).trans (h.running e id bound),
    fun e id bound => (same id bound).trans (h.paused e id bound)⟩

end cell

/-! ## The records together -/

/-- The lot has left test: it is neither WAITING nor BOUND and never will be again. -/
def Lot.Past (l : Lot) : Prop := l.state ≠ .waiting ∧ l.state ≠ .bound

/-- Lots and cells name each other (R57), the queue holds WAITING lots, shipments are of lots that have left test. -/
structure State.Linked (s : State) : Prop where
  ids       : (s.lots.map Lot.id).Nodup
  bound     : ∀ id l, s.lot id = some l → (l.state = .bound ↔ l.cell ≠ none)
  named     : ∀ id l c, s.lot id = some l → l.cell = some c → (s.cell c).bound = some id
  names     : ∀ c id, (s.cell c).bound = some id → ∃ l, s.lot id = some l ∧ l.cell = some c
  queue     : ∀ w ∈ s.queue, ∃ l, s.lot w.lot = some l ∧ l.state = .waiting
  shipments : ∀ r ∈ s.shipments, ∃ l, s.lot r.lot = some l ∧ l.Past

/-- The hold list (R137) but for its room: no key twice, every record on a lot of the table, hold counts right. -/
structure State.HoldsCounted (s : State) : Prop where
  keys  : (s.holds.map HoldRecord.key).Nodup
  known : ∀ h ∈ s.holds, s.lot h.lot ≠ none
  count : ∀ id l, s.lot id = some l → l.holdCount = (s.holds.filter fun h => h.lot = id).length

/-- All of it, with every cell in agreement, but for one that may be at work: that one has the given record and is
ready for its next state. -/
structure State.Agreed (work : Option (CellNo × Cell)) (s : State) : Prop where
  linked : s.Linked
  holds  : s.HoldsCounted
  cells  : ∀ c, work.map Prod.fst ≠ some c → (s.cell c).Fits s.lotUnheld
  ready  : ∀ c x, work = some (c, x) → s.cell c = x ∧ x.Ready

/-! ## Looking lots up -/

theorem State.lot_mem {s : State} {id : Id} {l : Lot} (h : s.lot id = some l) : l ∈ s.lots :=
  List.mem_of_find?_eq_some h

/-- With no id twice every lot of the table is the one found. -/
theorem State.lot_of_mem {s : State} (ids : (s.lots.map Lot.id).Nodup) {l : Lot} (mem : l ∈ s.lots) :
    s.lot l.id = some l := by
  unfold State.lot
  generalize s.lots = ls at ids mem
  induction ls with
  | nil => cases mem
  | cons m ls ih =>
    rw [List.map_cons, List.nodup_cons] at ids
    obtain rfl | mem := List.mem_cons.mp mem
    · simp
    · have other : m.id ≠ l.id := fun e => ids.1 (e ▸ List.mem_map_of_mem mem)
      rw [List.find?_cons_of_neg (by simpa using other)]
      exact ih ids.2 mem

theorem State.lotUnheld_eq {s : State} {id : Id} {l : Lot} (known : s.lot id = some l) :
    s.lotUnheld id = l.unheld := by
  simp [State.lotUnheld, known]

/-- What a change of the lots of one id makes of the lookup. -/
theorem State.onLot_lot {s : State} {id : Id} {f : Lot → Lot} (keep : ∀ l, (f l).id = l.id) (k : Id) :
    (s.onLot id f).lot k = if k = id then (s.lot id).map f else s.lot k := by
  by_cases same : k = id
  · subst same
    rw [if_pos rfl]
    cases known : s.lot k with
    | some l => exact s.onLot_lot_same f known keep
    | none =>
      have absent : ∀ l ∈ s.lots, l.id ≠ k := by simpa [State.lot] using known
      have still : ∀ l ∈ (s.onLot k f).lots, l.id ≠ k := by
        simp only [State.onLot, List.mem_map]
        rintro _ ⟨l, mem, rfl⟩
        rw [if_neg (absent l mem)]
        exact absent l mem
      simpa [State.lot] using still
  · rw [if_neg same]
    exact s.onLot_lot_ne f same keep

theorem State.onLot_ids {s : State} {id : Id} {f : Lot → Lot} (keep : ∀ l, (f l).id = l.id) :
    (s.onLot id f).lots.map Lot.id = s.lots.map Lot.id := by
  rw [State.onLot, List.map_map]
  refine List.map_congr_left fun l _ => ?_
  by_cases same : l.id = id <;> simp [same, keep]

/-! ## NLOT leaves the records -/

/-- What changes ports only and a change of a cell commute. -/
theorem State.OnlyPorts.onCell {s t : State} (h : s.OnlyPorts t) (c : CellNo) (f : Cell → Cell) :
    (s.onCell c f).OnlyPorts (t.onCell c f) := by
  rw [h]
  rfl

section nlot
variable (s : State) (id : Id) (cause : Cause) (hold : Option (HoldKind × Nat))
@[simp] theorem State.nlot_lots : (s.nlot id cause hold).lots = s.lots := by rw [State.onlyPorts_nlot]
@[simp] theorem State.nlot_cells : (s.nlot id cause hold).cells = s.cells := by rw [State.onlyPorts_nlot]
@[simp] theorem State.nlot_queue : (s.nlot id cause hold).queue = s.queue := by rw [State.onlyPorts_nlot]
@[simp] theorem State.nlot_shipments : (s.nlot id cause hold).shipments = s.shipments := by rw [State.onlyPorts_nlot]
@[simp] theorem State.nlot_holds : (s.nlot id cause hold).holds = s.holds := by rw [State.onlyPorts_nlot]
@[simp] theorem State.nlot_cell (c : CellNo) : (s.nlot id cause hold).cell c = s.cell c := by
  rw [State.onlyPorts_nlot]; rfl
@[simp] theorem State.nlot_lot (k : Id) : (s.nlot id cause hold).lot k = s.lot k := by rw [State.onlyPorts_nlot]; rfl
@[simp] theorem State.nlot_lotUnheld (k : Id) : (s.nlot id cause hold).lotUnheld k = s.lotUnheld k := by
  rw [State.onlyPorts_nlot]; rfl
end nlot

/-! ## Changes of the links -/

namespace State.Linked

variable {s t : State}

/-- One lot becomes `m`: the cells name it as it names them, and the queue and the shipments lose it unless its state
keeps its place there. -/
theorem relot (h : s.Linked) {id : Id} {m : Lot} (ids : t.lots.map Lot.id = s.lots.map Lot.id)
    (lot : ∀ k, t.lot k = if k = id then some m else s.lot k) (bound : m.state = .bound ↔ m.cell ≠ none)
    (here : ∀ d, (t.cell d).bound = some id ↔ m.cell = some d)
    (others : ∀ d k, k ≠ id → ((t.cell d).bound = some k ↔ (s.cell d).bound = some k))
    (queue : ∀ w ∈ t.queue, w ∈ s.queue ∧ (w.lot = id → m.state = .waiting))
    (shipments : ∀ r ∈ t.shipments, r ∈ s.shipments ∧ (r.lot = id → m.Past)) : t.Linked where
  ids := ids ▸ h.ids
  bound k l known := by
    by_cases same : k = id
    · rw [lot, if_pos same, Option.some.injEq] at known
      exact known ▸ bound
    · rw [lot, if_neg same] at known
      exact h.bound k l known
  named k l c known cell := by
    by_cases same : k = id
    · rw [lot, if_pos same, Option.some.injEq] at known
      rw [same, here, known, cell]
    · rw [lot, if_neg same] at known
      exact (others c k same).mpr (h.named k l c known cell)
  names c k named := by
    by_cases same : k = id
    · subst same
      exact ⟨m, by rw [lot, if_pos rfl], (here c).mp named⟩
    · rw [lot, if_neg same]
      exact h.names c k ((others c k same).mp named)
  queue w mem := by
    obtain ⟨mem, waits⟩ := queue w mem
    rw [lot]
    split
    · exact ⟨m, rfl, waits ‹_›⟩
    · exact h.queue w mem
  shipments r mem := by
    obtain ⟨mem, past⟩ := shipments r mem
    rw [lot]
    split
    · exact ⟨m, rfl, past ‹_›⟩
    · exact h.shipments r mem

/-- Changes that leave the lots and what the cells name. -/
theorem of_links (h : s.Linked) (lots : t.lots = s.lots) (cells : ∀ d, (t.cell d).bound = (s.cell d).bound)
    (queue : ∀ w ∈ t.queue, ∃ v ∈ s.queue, v.lot = w.lot)
    (shipments : ∀ r ∈ t.shipments, ∃ q ∈ s.shipments, q.lot = r.lot) : t.Linked := by
  have lot (k : Id) : t.lot k = s.lot k := by rw [State.lot, lots, State.lot]
  exact
    { ids := lots ▸ h.ids
      bound := fun k l known => h.bound k l (lot k ▸ known)
      named := fun k l c known cell => by rw [cells]; exact h.named k l c (lot k ▸ known) cell
      names := fun c k named => by rw [lot]; exact h.names c k (cells c ▸ named)
      queue := fun w mem => by
        obtain ⟨v, mem, same⟩ := queue w mem
        rw [lot, ← same]
        exact h.queue v mem
      shipments := fun r mem => by
        obtain ⟨q, mem, same⟩ := shipments r mem
        rw [lot, ← same]
        exact h.shipments q mem }

/-- The lot that a cell names. -/
theorem boundLot (h : s.Linked) {c : CellNo} {id : Id} (bound : (s.cell c).bound = some id) :
    ∃ l, s.lot id = some l ∧ l.cell = some c ∧ l.state = .bound ∧ l.id = id ∧ s.boundLot c = some l := by
  obtain ⟨l, known, cell⟩ := h.names c id bound
  exact ⟨l, known, cell, (h.bound id l known).mpr (by simp [cell]), s.lot_id known,
    by simp [State.boundLot, bound, known]⟩

/-- A lot that is not BOUND is named by no cell. -/
theorem unnamed (h : s.Linked) {id : Id} {l : Lot} (known : s.lot id = some l) (free : l.state ≠ .bound) (c : CellNo) :
    (s.cell c).bound ≠ some id := by
  intro bound
  obtain ⟨m, known', -, state, -⟩ := h.boundLot bound
  obtain rfl := Option.some.inj (known.symm.trans known')
  exact free state

/-- A lot is named by the one cell that it names. -/
theorem cell_eq (h : s.Linked) {id : Id} {l : Lot} (known : s.lot id = some l) (c : CellNo) :
    (s.cell c).bound = some id ↔ l.cell = some c := by
  constructor
  · intro bound
    obtain ⟨m, known', cell, -⟩ := h.boundLot bound
    obtain rfl := Option.some.inj (known.symm.trans known')
    exact cell
  · exact h.named id l c known

end State.Linked

namespace State.HoldsCounted

variable {s t : State}

theorem of_counts (h : s.HoldsCounted) (holds : t.holds = s.holds)
    (lot : ∀ k, (t.lot k).map Lot.holdCount = (s.lot k).map Lot.holdCount) : t.HoldsCounted where
  keys := holds ▸ h.keys
  known r mem := by
    have known := h.known r (holds ▸ mem)
    have same := lot r.lot
    intro absent
    rw [absent] at same
    exact known (by simpa using same.symm)
  count k l known := by
    have same := lot k
    rw [known, Option.map_some, eq_comm, Option.map_eq_some_iff] at same
    obtain ⟨m, known', count⟩ := same
    rw [holds, ← count]
    exact h.count k m known'

/-- A lot with a record is held. -/
theorem held (h : s.HoldsCounted) {id : Id} {kind : HoldKind} {a : Nat} (has : s.hasHold id kind a = true) :
    s.lotUnheld id = false := by
  simp only [State.hasHold, List.any_eq_true, HoldRecord.is, Bool.and_eq_true, decide_eq_true_eq] at has
  obtain ⟨r, mem, ⟨rfl, -⟩, -⟩ := has
  cases known : s.lot r.lot with
  | none => exact absurd known (h.known r mem)
  | some l =>
    have counted := h.count _ l known
    have some_record : 0 < (s.holds.filter fun x => decide (x.lot = r.lot)).length :=
      List.length_pos_of_mem (List.mem_filter.mpr ⟨mem, by simp⟩)
    rw [State.lotUnheld_eq known, Lot.unheld]
    simp
    omega

end State.HoldsCounted

/-- What a change of a lot's record leaves of its links: its cell, and its state unless it has left test. -/
structure Lot.Links (l m : Lot) : Prop where
  id    : m.id = l.id
  cell  : m.cell = l.cell
  state : m.state = l.state ∨ (l.Past ∧ m.Past)

/-- The same, and its holds. -/
structure Lot.Stays (l m : Lot) : Prop extends l.Links m where
  holdCount : m.holdCount = l.holdCount
  overflow  : m.overflow = l.overflow

theorem Lot.Stays.of_same {l m : Lot} (id : m.id = l.id := by rfl) (cell : m.cell = l.cell := by rfl)
    (holdCount : m.holdCount = l.holdCount := by rfl) (overflow : m.overflow = l.overflow := by rfl)
    (state : m.state = l.state := by rfl) : l.Stays m :=
  ⟨⟨id, cell, .inl state⟩, holdCount, overflow⟩

theorem Lot.Stays.of_past {l m : Lot} (past : l.Past) (past' : m.Past) (id : m.id = l.id := by rfl)
    (cell : m.cell = l.cell := by rfl) (holdCount : m.holdCount = l.holdCount := by rfl)
    (overflow : m.overflow = l.overflow := by rfl) : l.Stays m :=
  ⟨⟨id, cell, .inr ⟨past, past'⟩⟩, holdCount, overflow⟩

theorem Lot.Stays.unheld {l m : Lot} (h : l.Stays m) : m.unheld = l.unheld := by
  rw [Lot.unheld, Lot.unheld, h.holdCount, h.overflow]

/-- A change of a lot that leaves its links. -/
theorem State.Linked.onLot {s : State} (h : s.Linked) {id : Id} {f : Lot → Lot} {l : Lot} (known : s.lot id = some l)
    (links : l.Links (f l)) (keep : ∀ l, (f l).id = l.id) : (s.onLot id f).Linked := by
  have lot (k : Id) : (s.onLot id f).lot k = if k = id then some (f l) else s.lot k := by
    rw [State.onLot_lot keep, known]
    rfl
  have bound : (f l).state = .bound ↔ (f l).cell ≠ none := by
    rw [links.cell, ← h.bound id l known]
    obtain same | ⟨past, past'⟩ := links.state
    · rw [same]
    · exact iff_of_false past'.2 past.2
  refine h.relot (State.onLot_ids keep) lot bound ?_ (fun _ _ _ => .rfl) (fun w mem => ⟨mem, ?_⟩)
    fun r mem => ⟨mem, ?_⟩
  · intro d
    rw [links.cell]
    exact h.cell_eq known d
  · rintro rfl
    obtain ⟨m, known', waits⟩ := h.queue w mem
    obtain rfl := Option.some.inj (known.symm.trans known')
    obtain same | ⟨past, -⟩ := links.state
    · rw [same, waits]
    · exact absurd waits past.1
  · rintro rfl
    obtain ⟨m, known', past⟩ := h.shipments r mem
    obtain rfl := Option.some.inj (known.symm.trans known')
    obtain same | ⟨-, past'⟩ := links.state
    · rwa [Lot.Past, same]
    · exact past'

/-- No lot has the id that is changed. -/
theorem State.onLot_absent {s : State} {id : Id} (absent : s.lot id = none) (f : Lot → Lot) :
    (s.onLot id f).lots = s.lots := by
  have absent : ∀ l ∈ s.lots, l.id ≠ id := by simpa [State.lot] using absent
  simp only [State.onLot]
  conv_rhs => rw [← List.map_id s.lots]
  exact List.map_congr_left fun l mem => if_neg (absent l mem)

/-- Which lots are held, once the lots of one id are changed. -/
theorem State.onLot_lotUnheld {s : State} {id : Id} {f : Lot → Lot} {l : Lot} (known : s.lot id = some l)
    (keep : ∀ l, (f l).id = l.id) (k : Id) :
    (s.onLot id f).lotUnheld k = if k = id then (f l).unheld else s.lotUnheld k := by
  rw [State.lotUnheld, State.onLot_lot keep]
  split
  · rw [known]
    rfl
  · rfl

namespace State.Agreed

variable {s t : State} {b : Option (CellNo × Cell)} {c : CellNo} {x : Cell}

/-! ## Where the agreement comes from and what it gives -/

theorem of_same (h : s.Agreed b) (lots : t.lots = s.lots := by rfl) (cells : t.cells = s.cells := by rfl)
    (queue : t.queue = s.queue := by rfl) (shipments : t.shipments = s.shipments := by rfl)
    (holds : t.holds = s.holds := by rfl) : t.Agreed b := by
  have cell (d : CellNo) : t.cell d = s.cell d := by rw [State.cell, cells, State.cell]
  have lot (k : Id) : t.lot k = s.lot k := by rw [State.lot, lots, State.lot]
  have unheld : t.lotUnheld = s.lotUnheld := by funext k; rw [State.lotUnheld, lot, State.lotUnheld]
  exact
    { linked := h.linked.of_links lots (fun d => by rw [cell]) (fun w mem => ⟨w, queue ▸ mem, rfl⟩)
        fun r mem => ⟨r, shipments ▸ mem, rfl⟩
      holds := h.holds.of_counts holds fun k => by rw [lot]
      cells := fun d other => by rw [cell, unheld]; exact h.cells d other
      ready := fun d y work => by rw [cell]; exact h.ready d y work }

theorem of_onlyPorts (h : s.Agreed b) (ports : s.OnlyPorts t) : t.Agreed b := by
  rw [ports]
  exact h.of_same

theorem of_ite {p : Prop} [Decidable p] (h : p → s.Agreed b) (k : ¬p → t.Agreed b) : (if p then s else t).Agreed b := by
  split
  · exact h ‹_›
  · exact k ‹_›

/-- The cell set aside, as it was given. -/
theorem cell (h : s.Agreed (some (c, x))) : s.cell c = x := (h.ready c x rfl).1

theorem cell_ready (h : s.Agreed (some (c, x))) : x.Ready := (h.ready c x rfl).2

/-- The cell at work, or none, comes to a state of its own. -/
theorem close (h : s.Agreed b) (only : ∀ d, d ≠ c → b.map Prod.fst ≠ some d) (linked : t.Linked)
    (holds : t.HoldsCounted) (cells : ∀ d, d ≠ c → t.cell d = s.cell d)
    (unheld : ∀ d, d ≠ c → ∀ k, (s.cell d).bound = some k → t.lotUnheld k = s.lotUnheld k)
    (fits : (t.cell c).Fits t.lotUnheld) : t.Agreed none where
  linked := linked
  holds := holds
  cells d _ := by
    by_cases here : d = c
    · exact here ▸ fits
    · rw [cells d here]
      exact (h.cells d (only d here)).of_unheld (unheld d here)
  ready := fun _ _ work => by cases work

/-- A cell is set aside, or stays so with another record. -/
theorem reopen (h : s.Agreed b) (only : ∀ d, d ≠ c → b.map Prod.fst ≠ some d) (linked : t.Linked)
    (holds : t.HoldsCounted) (cells : ∀ d, d ≠ c → t.cell d = s.cell d)
    (unheld : ∀ d, d ≠ c → ∀ k, (s.cell d).bound = some k → t.lotUnheld k = s.lotUnheld k)
    (at_c : t.cell c = x) (ready : x.Ready) : t.Agreed (some (c, x)) where
  linked := linked
  holds := holds
  cells d other := by
    have other : d ≠ c := fun e => other (by rw [e]; rfl)
    rw [cells d other]
    exact (h.cells d (only d other)).of_unheld (unheld d other)
  ready d y work := by
    cases work
    exact ⟨at_c, ready⟩

theorem only_none : ∀ d, d ≠ c → (none : Option (CellNo × Cell)).map Prod.fst ≠ some d := fun _ _ => by simp

theorem only_some : ∀ d, d ≠ c → (some (c, x)).map Prod.fst ≠ some d := fun _ other e => other (Option.some.inj e).symm

/-! ## Updates of one cell -/

section setCell
variable {y : Cell} {f : Cell → Cell}

theorem setCell_linked (h : s.Linked) (same : y.bound = (s.cell c).bound) : (s.setCell c y).Linked := by
  refine h.of_links rfl (fun d => ?_) (fun w mem => ⟨w, mem, rfl⟩) fun r mem => ⟨r, mem, rfl⟩
  by_cases here : d = c
  · subst here
    simpa using same
  · simp [here]

/-- A cell that is not at work changes, and still fits. -/
theorem setCell (h : s.Agreed b) (other : b.map Prod.fst ≠ some c) (same : y.bound = (s.cell c).bound)
    (fits : y.Fits s.lotUnheld) : (s.setCell c y).Agreed b where
  linked := setCell_linked h.linked same
  holds := h.holds.of_counts rfl fun _ => rfl
  cells d idle := by
    by_cases here : d = c
    · subst here
      rw [State.setCell_cell_same]
      exact fits
    · rw [State.setCell_cell_ne s y here]
      exact h.cells d idle
  ready d z work := by
    have away : d ≠ c := by
      rintro rfl
      exact other (by rw [work]; rfl)
    rw [State.setCell_cell_ne s y away]
    exact h.ready d z work

/-- The cell at work comes to a state of its own. -/
theorem setCell_close (h : s.Agreed (some (c, x))) (same : y.bound = x.bound) (fits : y.Fits s.lotUnheld) :
    (s.setCell c y).Agreed none :=
  h.close only_some (setCell_linked h.linked (by rw [h.cell, same])) (h.holds.of_counts rfl fun _ => rfl)
    (fun d away => by simp [away]) (fun _ _ _ _ => rfl) (by rw [State.setCell_cell_same]; exact fits)

/-- A cell's work in hand ends. -/
theorem setCell_open (h : s.Agreed none) (same : y.bound = (s.cell c).bound) (ready : y.Ready) :
    (s.setCell c y).Agreed (some (c, y)) :=
  h.reopen only_none (setCell_linked h.linked same) (h.holds.of_counts rfl fun _ => rfl)
    (fun d away => by simp [away]) (fun _ _ _ _ => rfl) (by simp) ready

/-- The cell at work changes and is still to get its state. -/
theorem setCell_ready (h : s.Agreed (some (c, x))) (same : y.bound = x.bound) (ready : y.Ready) :
    (s.setCell c y).Agreed (some (c, y)) :=
  h.reopen only_some (setCell_linked h.linked (by rw [h.cell, same])) (h.holds.of_counts rfl fun _ => rfl)
    (fun d away => by simp [away]) (fun _ _ _ _ => rfl) (by simp) ready

theorem onCell (h : s.Agreed none) (same : (f (s.cell c)).bound = (s.cell c).bound)
    (fits : (f (s.cell c)).Fits s.lotUnheld) : (s.onCell c f).Agreed none := h.setCell (by simp) same fits

theorem moveCell (h : s.Agreed none) (same : (f (s.cell c)).bound = (s.cell c).bound)
    (fits : (f (s.cell c)).Fits s.lotUnheld) : (s.moveCell c f).Agreed none :=
  (h.onCell same fits).of_onlyPorts (State.onlyPorts_ncel _ c)

theorem moveCell_close (h : s.Agreed (some (c, x))) (same : (f x).bound = x.bound) (fits : (f x).Fits s.lotUnheld) :
    (s.moveCell c f).Agreed none := by
  obtain rfl := h.cell
  exact (h.setCell_close same fits).of_onlyPorts (State.onlyPorts_ncel _ c)

theorem onCell_open (h : s.Agreed none) (same : (f (s.cell c)).bound = (s.cell c).bound)
    (ready : (f (s.cell c)).Ready) : (s.onCell c f).Agreed (some (c, f (s.cell c))) := h.setCell_open same ready

theorem onCell_ready (h : s.Agreed (some (c, x))) (same : (f x).bound = x.bound) (ready : (f x).Ready) :
    (s.onCell c f).Agreed (some (c, f x)) := by
  obtain rfl := h.cell
  exact h.setCell_ready same ready

end setCell

/-! ## Updates of one lot, and of the queue -/

theorem onLot (h : s.Agreed b) (id : Id) (f : Lot → Lot) (stays : ∀ l, s.lot id = some l → l.Stays (f l))
    (keep : ∀ l, (f l).id = l.id := by exact fun _ => rfl) : (s.onLot id f).Agreed b := by
  cases known : s.lot id with
  | none => exact h.of_same (State.onLot_absent known f)
  | some l =>
    have one := stays l known
    have unheld : (s.onLot id f).lotUnheld = s.lotUnheld := by
      funext k
      rw [State.onLot_lotUnheld known keep, one.unheld]
      split
      · rename_i same
        rw [same, State.lotUnheld_eq known]
      · rfl
    refine ⟨h.linked.onLot known one.toLinks keep, h.holds.of_counts rfl fun k => ?_, fun d idle => ?_, h.ready⟩
    · rw [State.onLot_lot keep]
      split
      · rename_i same
        rw [same, known, Option.map_some, Option.map_some, Option.map_some, one.holdCount]
      · rfl
    · rw [unheld]
      exact h.cells d idle

theorem nlot (h : s.Agreed b) (id : Id) (cause : Cause) (hold : Option (HoldKind × Nat) := none) :
    (s.nlot id cause hold).Agreed b := h.of_onlyPorts (s.onlyPorts_nlot id cause hold)

theorem notify (h : s.Agreed b) (p : Port) (n : Notice) : (s.notify p n).Agreed b := h.of_same

theorem notifyMember (h : s.Agreed b) (m : Option Id) (n : Id → Notice) : (s.notifyMember m n).Agreed b :=
  h.of_onlyPorts (s.onlyPorts_notifyMember m n)

theorem notifyMembers (h : s.Agreed b) (d : CellNo) (n : Id → Notice) : (s.notifyMembers d n).Agreed b :=
  h.of_onlyPorts (s.onlyPorts_notifyMembers d n)

/-- Queue and shipments may lose places, and the rest of a place may change. -/
theorem of_places (h : s.Agreed b) (queue : ∀ w ∈ t.queue, ∃ v ∈ s.queue, v.lot = w.lot)
    (shipments : ∀ r ∈ t.shipments, ∃ q ∈ s.shipments, q.lot = r.lot) (lots : t.lots = s.lots := by rfl)
    (cells : t.cells = s.cells := by rfl) (holds : t.holds = s.holds := by rfl) : t.Agreed b := by
  have same := h.of_same (t := { t with queue := s.queue, shipments := s.shipments }) lots cells rfl rfl holds
  exact
    { linked := same.linked.of_links rfl (fun _ => rfl) queue shipments
      holds := same.holds.of_counts rfl fun _ => rfl
      cells := same.cells
      ready := same.ready }

theorem leaveQueue (h : s.Agreed b) (id : Id) : (s.leaveQueue id).Agreed b :=
  h.of_places (fun w mem => ⟨w, (List.mem_filter.mp mem).1, rfl⟩) fun r mem => ⟨r, mem, rfl⟩

theorem freshPriority_lot (s : State) (w : Waiting) : (s.freshPriority w).lot = w.lot := by
  unfold State.freshPriority
  split <;> rfl

theorem recompute (h : s.Agreed b) : s.recompute.Agreed b := by
  refine h.of_places (fun w mem => ?_) fun r mem => ⟨r, mem, rfl⟩
  obtain ⟨v, queued, rfl⟩ := List.mem_map.mp mem
  exact ⟨v, queued, (freshPriority_lot s v).symm⟩

theorem recomputeLot (h : s.Agreed b) (id : Id) : (s.recomputeLot id).Agreed b := by
  refine h.of_places (fun w mem => ?_) fun r mem => ⟨r, mem, rfl⟩
  obtain ⟨v, queued, rfl⟩ := List.mem_map.mp mem
  refine ⟨v, queued, ?_⟩
  split
  · exact (freshPriority_lot s v).symm
  · rfl

theorem dropShipment (h : s.Agreed b) (id : Id) : (s.dropShipment id).Agreed b :=
  h.of_places (fun w mem => ⟨w, mem, rfl⟩) fun r mem => ⟨r, (List.mem_filter.mp mem).1, rfl⟩

theorem offerAll (h : s.Agreed b) (o : OfferState) : (s.offerAll o).Agreed b := by
  refine h.of_places (fun w mem => ⟨w, mem, rfl⟩) fun r mem => ?_
  obtain ⟨q, shipped, rfl⟩ := List.mem_map.mp mem
  exact ⟨q, shipped, rfl⟩

/-- Places of WAITING lots and shipments of lots that have left test may be added. -/
theorem withPlaces (h : s.Agreed b) {queue : List Waiting} {shipments : List Shipment}
    (waits : ∀ w ∈ queue, ∃ l, s.lot w.lot = some l ∧ l.state = .waiting)
    (past : ∀ r ∈ shipments, ∃ l, s.lot r.lot = some l ∧ l.Past) :
    ({ s with queue := queue, shipments := shipments } : State).Agreed b :=
  ⟨⟨h.linked.ids, h.linked.bound, h.linked.named, h.linked.names, waits, past⟩, h.holds.of_counts rfl fun _ => rfl,
    h.cells, h.ready⟩

/-- A WAITING lot joins the queue (R78). -/
theorem joinQueue (h : s.Agreed b) {id : Id} (waits : ∀ l, s.lot id = some l → l.state = .waiting) :
    (s.joinQueue id).Agreed b := by
  unfold State.joinQueue
  split
  · rename_i l known
    have stamped := h.onLot id (fun l => { l with joinStamp := s.clock.stamp }) fun _ _ => .of_same
    refine stamped.withPlaces (fun w mem => ?_) stamped.linked.shipments
    obtain mem | mem := List.mem_append.mp mem
    · exact stamped.linked.queue w mem
    · obtain rfl := List.mem_singleton.mp mem
      exact ⟨_, s.onLot_lot_same _ known fun _ => rfl, waits l known⟩
  · exact h

end State.Agreed

end Sys2Proof.Machine
end

section
/-! Holds, checks, runs, preparations and bindings keep lots and cells in agreement (chapters 5, 6 and 8). -/

namespace Sys2Proof.Machine

-- one theorem at a time: many at once, each with a thread of its own, can exceed the memory limit
set_option Elab.async false

/-! ## The stop of a run (R104) -/

theorem State.stopRun_running {s : State} {c : CellNo} {r : Run} (state : (s.cell c).state = .running)
    (run : (s.cell c).run = some r) : ∃ u, s.OnlyPorts u ∧ s.stopRun c = u.moveCell c fun x =>
      { x with run := some { r with stopFlag := true }, state := .stopping } := by
  refine ⟨_, s.onlyPorts_notifyMember (s.cell c).handler
    fun id => .nsto id c (((s.cell c).bound).getD 0) r.number, ?_⟩
  unfold State.stopRun
  rw [state, run]

theorem State.stopRun_stays {s : State} {c : CellNo} (other : (s.cell c).state ≠ .running ∨ (s.cell c).run = none) :
    s.stopRun c = s := by
  unfold State.stopRun
  split
  · rename_i state run
    obtain other | none_open := other
    · exact absurd state other
    · simp [run] at none_open
  · rfl

/-- A first hold changes no lot's holds. -/
theorem State.firstHold_lotUnheld (s : State) (id k : Id) : (s.firstHold id).lotUnheld k = s.lotUnheld k := by
  obtain e | e | ⟨c, e⟩ | e := s.firstHold_cases id <;> rw [e]
  · rfl
  · obtain e | ⟨r, -, -, u, ports, e⟩ := s.stopRun_cases c <;> rw [e]
    rw [ports]
    rfl
  · rw [State.withdraw, State.nlot_lotUnheld]
    cases known : s.lot id with
    | none =>
      have absent : (s.dropShipment id).lot id = none := known
      rw [State.lotUnheld, State.lot, State.onLot_absent absent]
      rfl
    | some l =>
      have known' : (s.dropShipment id).lot id = some l := known
      rw [State.onLot_lotUnheld known' (by exact fun _ => rfl)]
      split
      · rename_i same
        rw [same, State.lotUnheld_eq known]
        rfl
      · rfl

/-- A RUNNING cell that stops is STOPPING, and has the parts of that state. -/
theorem Cell.Sound.stopping {x : Cell} (h : x.Sound) {r : Run} (state : x.state = .running) (run : x.run = some r) :
    ({ x with run := some { r with stopFlag := true }, state := .stopping } : Cell).Sound := by
  have fits := h.fits r run
  rw [state] at fits
  exact h.runs (.inl state) (.inr (.inl rfl))
    ⟨by simp, fun _ => rfl, by simpa using fits.count, by simpa using fits.reason, by simpa using fits.deadline⟩

namespace State.Agreed

variable {s t : State} {b : Option (CellNo × Cell)} {c : CellNo} {x : Cell} {id : Id}

/-! ## Holds (chapter 8) -/

/-- A lot is held whose cell, if one names it, is not RUNNING. -/
theorem raised (h : s.Agreed b)
    (quiet : ∀ d, b.map Prod.fst ≠ some d → (s.cell d).bound = some id → (s.cell d).state ≠ .running)
    (linked : t.Linked) (holds : t.HoldsCounted) (cells : ∀ d, t.cell d = s.cell d)
    (unheld : ∀ k, t.lotUnheld k = if k = id then false else s.lotUnheld k) : t.Agreed b where
  linked := linked
  holds := holds
  cells d idle := by
    have fits := h.cells d idle
    rw [cells]
    refine ⟨fits.sound, fun running k bound => ?_, fun paused k bound => ?_⟩
    · rw [unheld, if_neg]
      · exact fits.running running k bound
      · rintro rfl
        exact quiet d idle bound running
    · rw [unheld]
      split
      · rfl
      · exact fits.paused paused k bound
  ready d y work := by
    rw [cells]
    exact h.ready d y work

/-- A lot comes to be held, and a first hold then acts by the lot's state and its cell's (R143). -/
theorem held (h : s.Agreed b) {l m : Lot} (known : s.lot id = some l) (known' : t.lot id = some m)
    (state : m.state = l.state) (cell : m.cell = l.cell) (linked : t.Linked) (holds : t.HoldsCounted)
    (cells : ∀ d, t.cell d = s.cell d) (unheld : ∀ k, t.lotUnheld k = if k = id then false else s.lotUnheld k) :
    (if l.unheld = true then t.firstHold id else t).Agreed b := by
  have still (quiet : ∀ d, b.map Prod.fst ≠ some d → (s.cell d).bound = some id → (s.cell d).state ≠ .running) :
      t.Agreed b := h.raised quiet linked holds cells unheld
  split
  · have unbound (free : l.state ≠ .bound) : t.Agreed b :=
      still fun d _ bound => absurd bound (h.linked.unnamed known free d)
    unfold State.firstHold
    rw [known']
    dsimp only
    rw [state, cell]
    cases at_l : l.state with
    | waiting => exact (unbound (by simp [at_l])).leaveQueue id
    | released =>
      refine (((unbound (by simp [at_l])).dropShipment id).onLot id _ fun l' known'' => ?_).nlot id .withdrawn
      obtain rfl := Option.some.inj (known'.symm.trans known'')
      exact .of_past (by simp [Lot.Past, state, at_l]) (by simp [Lot.Past])
    | tested | sampling | accepted => exact unbound (by simp [at_l])
    | bound =>
      obtain ⟨d, at_d⟩ := Option.ne_none_iff_exists'.mp ((h.linked.bound id l known).mp at_l)
      have names : (s.cell d).bound = some id := h.linked.named id l d known at_d
      have only (e : CellNo) (bound : (s.cell e).bound = some id) : e = d := by
        have := (h.linked.cell_eq known e).mp bound
        exact Option.some.inj (this.symm.trans at_d)
      simp only [at_d]
      by_cases work : b.map Prod.fst = some d
      · obtain ⟨⟨e, y⟩, rfl, same⟩ := Option.map_eq_some_iff.mp work
        obtain rfl : d = e := same.symm
        have run : (t.cell d).run = none := by rw [cells, h.cell]; exact h.cell_ready.run
        rw [State.stopRun_stays (.inr run)]
        refine still fun e idle bound => absurd ?_ idle
        rw [only e bound]
        rfl
      · by_cases running : (s.cell d).state = .running
        · obtain ⟨r, run⟩ := Option.isSome_iff_exists.mp ((h.cells d work).sound.run.mpr (.inl running))
          obtain ⟨u, ports, e⟩ := State.stopRun_running (s := t) (c := d) (r := r) (by rw [cells, running])
            (by rw [cells, run])
          rw [e]
          refine of_onlyPorts ?_ (State.onlyPorts_ncel _ d)
          rw [ports, State.onCell_eq]
          have stopped := h.setCell (y := { s.cell d with run := some { r with stopFlag := true }, state := .stopping })
            work rfl (.of_sound ((h.cells d work).sound.stopping running run) (by simp) (by simp))
          have same : (t.setCell d
              { t.cell d with run := some { r with stopFlag := true }, state := .stopping }).Agreed b := by
            refine stopped.raised (fun e idle bound => ?_) (setCell_linked linked rfl)
              (holds.of_counts rfl fun _ => rfl) (fun e => ?_) unheld
            · by_cases here : e = d
              · simp [here]
              · rw [State.setCell_cell_ne s _ here] at bound
                exact absurd (only e bound) here
            · by_cases here : e = d
              · simp [here, cells]
              · simp [here, cells]
          exact same.of_same
        · rw [State.stopRun_stays (.inl (by rw [cells]; exact running))]
          exact still fun e _ bound => only e bound ▸ running
  · rename_i held
    refine still fun d idle bound running => held ?_
    rw [← State.lotUnheld_eq known]
    exact (h.cells d idle).running running id bound

/-- A record of a new key is appended (R139). -/
theorem appendHold (h : s.Agreed b) {r : HoldRecord} {l : Lot} (known : s.lot r.lot = some l)
    (fresh : s.hasHold r.lot r.kind r.arg = false) : (s.appendHold r).Agreed b := by
  let t : State := (({ s with holds := s.holds ++ [r] } : State).onLot r.lot fun l =>
    { l with holdCount := l.holdCount + 1 }).nlot r.lot .holdPlaced (some (r.kind, r.arg))
  have e : s.appendHold r = if l.unheld = true then t.firstHold r.lot else t := by
    rw [State.appendHold, State.lotUnheld_eq known]
  have known' : ({ s with holds := s.holds ++ [r] } : State).lot r.lot = some l := known
  have appended : ({ s with holds := s.holds ++ [r] } : State).Linked :=
    h.linked.of_links rfl (fun _ => rfl) (fun w mem => ⟨w, mem, rfl⟩) fun q mem => ⟨q, mem, rfl⟩
  have linked := appended.onLot (f := fun l => { l with holdCount := l.holdCount + 1 }) known' ⟨rfl, rfl, .inl rfl⟩
    fun _ => rfl
  have lot (k : Id) : t.lot k = if k = r.lot then some { l with holdCount := l.holdCount + 1 } else s.lot k := by
    rw [State.nlot_lot, State.onLot_lot (by exact fun _ => rfl), known']
    rfl
  have counted : t.HoldsCounted := by
    refine ⟨?_, fun q mem => ?_, fun k m at_k => ?_⟩
    · rw [State.nlot_holds]
      show ((s.holds ++ [r]).map HoldRecord.key).Nodup
      rw [List.map_append, List.nodup_append]
      refine ⟨h.holds.keys, by simp, ?_⟩
      simp only [State.hasHold, List.any_eq_false, HoldRecord.is, Bool.and_eq_true, decide_eq_true_eq] at fresh
      simp only [List.map_cons, List.map_nil, List.mem_map, List.mem_singleton]
      rintro _ ⟨q, mem, rfl⟩ _ rfl same
      simp only [HoldRecord.key, Prod.mk.injEq] at same
      exact fresh q mem ⟨⟨same.1, same.2.1⟩, same.2.2⟩
    · rw [State.nlot_holds] at mem
      rw [lot]
      split
      · simp
      · rename_i other
        obtain mem | mem := List.mem_append.mp mem
        · exact h.holds.known q mem
        · exact absurd (by rw [List.mem_singleton.mp mem]) other
    · rw [State.nlot_holds]
      show _ = ((s.holds ++ [r]).filter fun h => h.lot = k).length
      rw [lot] at at_k
      split at at_k
      · rename_i same
        obtain rfl := Option.some.inj at_k
        simp [same, h.holds.count _ l known]
      · rename_i other
        have away : ¬r.lot = k := fun e => other e.symm
        simp [away, h.holds.count _ m at_k]
  rw [e]
  refine h.held known (m := { l with holdCount := l.holdCount + 1 }) ?_ rfl rfl ?_ counted ?_ fun k => ?_
  · rw [lot, if_pos rfl]
  · exact linked.of_links (State.nlot_lots ..) (fun d => by rw [State.nlot_cell])
      (fun w mem => ⟨w, by rwa [State.nlot_queue] at mem, rfl⟩)
      fun q mem => ⟨q, by rwa [State.nlot_shipments] at mem, rfl⟩
  · exact fun d => State.nlot_cell ..
  · rw [State.nlot_lotUnheld, State.onLot_lotUnheld known' (by exact fun _ => rfl)]
    split
    · simp [Lot.unheld]
    · rfl

/-- The overflow flag is set (R140). -/
theorem setOverflow (h : s.Agreed b) (id : Id) : (s.setOverflow id).Agreed b := by
  unfold State.setOverflow
  split
  · exact h
  · rename_i l known
    split
    · exact h
    · have linked := h.linked.onLot (f := fun l => { l with overflow := true }) known ⟨rfl, rfl, .inl rfl⟩ fun _ => rfl
      refine h.held known (m := { l with overflow := true }) ?_ rfl rfl ?_ ?_ (fun d => State.nlot_cell ..) fun k => ?_
      · rw [State.nlot_lot, State.onLot_lot (by exact fun _ => rfl), if_pos rfl, known]
        rfl
      · exact linked.of_links (State.nlot_lots ..) (fun d => by rw [State.nlot_cell])
          (fun w mem => ⟨w, by rwa [State.nlot_queue] at mem, rfl⟩)
          fun q mem => ⟨q, by rwa [State.nlot_shipments] at mem, rfl⟩
      · refine h.holds.of_counts (State.nlot_holds ..) fun k => ?_
        rw [State.nlot_lot, State.onLot_lot (by exact fun _ => rfl)]
        split
        · rename_i same
          rw [same, Option.map_map]
          rfl
        · rfl
      · rw [State.nlot_lotUnheld, State.onLot_lotUnheld known (by exact fun _ => rfl)]
        split
        · simp [Lot.unheld]
        · rfl

theorem placeHold (h : s.Agreed b) (src : Option Port) (id : Id) (kind : HoldKind) (a d : Nat) :
    (s.placeHold src id kind a d).Agreed b := by
  obtain e | ⟨-, -, e⟩ | ⟨l, known, fresh, -, e⟩ := s.placeHold_cases src id kind a d <;> rw [e]
  · exact h
  · exact h.setOverflow id
  · exact h.appendHold known fresh

end State.Agreed
end Sys2Proof.Machine
end

section
/-! Ratio checks, sample decisions, run opens and preparations keep lots and cells in agreement (chapters 5, 6, 9). -/

namespace Sys2Proof.Machine

-- one theorem at a time: many at once, each with a thread of its own, can exceed the memory limit
set_option Elab.async false

/-! ## A placement leaves its lot held -/

theorem State.appendHold_held {s : State} {r : HoldRecord} {l : Lot} (known : s.lot r.lot = some l) :
    (s.appendHold r).lotUnheld r.lot = false := by
  have known' : ({ s with holds := s.holds ++ [r] } : State).lot r.lot = some l := known
  have held : ((({ s with holds := s.holds ++ [r] } : State).onLot r.lot fun l =>
      { l with holdCount := l.holdCount + 1 }).nlot r.lot .holdPlaced (some (r.kind, r.arg))).lotUnheld r.lot
        = false := by
    rw [State.nlot_lotUnheld, State.onLot_lotUnheld known' (by exact fun _ => rfl), if_pos rfl]
    simp [Lot.unheld]
  unfold State.appendHold
  dsimp only
  split
  · rw [State.firstHold_lotUnheld]
    exact held
  · exact held

theorem State.setOverflow_held {s : State} {id : Id} {l : Lot} (known : s.lot id = some l) :
    (s.setOverflow id).lotUnheld id = false := by
  have held : ((s.onLot id fun l => { l with overflow := true }).nlot id .overflowSet).lotUnheld id = false := by
    rw [State.nlot_lotUnheld, State.onLot_lotUnheld known (by exact fun _ => rfl), if_pos rfl]
    simp [Lot.unheld]
  simp only [State.setOverflow, known]
  split
  · rename_i flag
    rw [State.lotUnheld_eq known]
    simp [Lot.unheld, flag]
  · split
    · rw [State.firstHold_lotUnheld]
      exact held
    · exact held

theorem State.placeHold_held {s : State} (counted : s.HoldsCounted) {id : Id} {l : Lot} (known : s.lot id = some l)
    (src : Option Port) (kind : HoldKind) (a d : Nat) : (s.placeHold src id kind a d).lotUnheld id = false := by
  unfold State.placeHold
  split
  · rename_i there
    exact counted.held (there.resolve_left (by simp [known]))
  · split
    · exact State.setOverflow_held known
    · exact State.appendHold_held (r := ⟨id, kind, a, d, src, s.clock.stamp, 0⟩) known

/-! ## Pass completion leaves a lot's links -/

theorem Lot.completePass_cases (l : Lot) (n : Nat) : ∃ (k : Nat) (final now next : Bins),
    l.completePass n = { l with pass := k, final := final, poolNow := now, poolNext := next } := by
  unfold Lot.completePass
  by_cases more : l.retests n = true
  · exact ⟨_, _, _, _, if_pos more⟩
  · exact ⟨_, _, _, _, if_neg more⟩

theorem Lot.completePass_stays (l : Lot) (n : Nat) : l.Stays (l.completePass n) := by
  obtain ⟨k, final, now, next, e⟩ := l.completePass_cases n
  rw [e]
  exact .of_same

/-! ## A lot leaves its cell, or takes one -/

/-- A lot and its cell let go of each other. -/
theorem State.Linked.unlink {s : State} (h : s.Linked) {c : CellNo} {id : Id} (bound : (s.cell c).bound = some id)
    {f : Lot → Lot} (keep : ∀ l, (f l).id = l.id) (free : ∀ l, (f l).cell = none) (left : ∀ l, (f l).state ≠ .bound)
    {y : Cell} (unbound : y.bound = none) : ((s.onLot id f).setCell c y).Linked := by
  obtain ⟨l, known, at_c, state, -⟩ := h.boundLot bound
  have lot (k : Id) : ((s.onLot id f).setCell c y).lot k = if k = id then some (f l) else s.lot k := by
    show (s.onLot id f).lot k = _
    rw [State.onLot_lot keep, known]
    rfl
  have cell (d : CellNo) : (((s.onLot id f).setCell c y).cell d).bound = if d = c then none else (s.cell d).bound := by
    split
    · rename_i here
      rw [here, State.setCell_cell_same, unbound]
    · rename_i away
      rw [State.setCell_cell_ne _ _ away]
      rfl
  refine h.relot (id := id) (m := f l) (State.onLot_ids keep) lot (by simp [free, left]) (fun d => ?_)
    (fun d k other => ?_) (fun w mem => ⟨mem, ?_⟩) fun r mem => ⟨mem, ?_⟩
  · rw [cell, free]
    split
    · simp
    · rename_i away
      refine iff_of_false (fun named => away ?_) (by simp)
      have := (h.cell_eq known d).mp named
      exact Option.some.inj (this.symm.trans at_c)
  · rw [cell]
    split
    · rename_i here
      subst here
      rw [bound]
      simp [Ne.symm other]
    · rfl
  · rintro rfl
    obtain ⟨m, known', waits⟩ := h.queue w mem
    obtain rfl := Option.some.inj (known.symm.trans known')
    simp [state] at waits
  · rintro rfl
    obtain ⟨m, known', past⟩ := h.shipments r mem
    obtain rfl := Option.some.inj (known.symm.trans known')
    exact absurd state past.2

/-- A WAITING lot out of the queue and a cell without a lot take each other. -/
theorem State.Linked.link {s : State} (h : s.Linked) {c : CellNo} {id : Id} {l : Lot} (known : s.lot id = some l)
    (waits : l.state = .waiting) (free : (s.cell c).bound = none) (out : ∀ w ∈ s.queue, w.lot ≠ id) {y : Cell}
    (bound : y.bound = some id) :
    ((s.onLot id fun l => { l with state := .bound, cell := some c }).setCell c y).Linked := by
  have lot (k : Id) : ((s.onLot id fun l => { l with state := .bound, cell := some c }).setCell c y).lot k
      = if k = id then some { l with state := .bound, cell := some c } else s.lot k := by
    show (s.onLot id _).lot k = _
    rw [State.onLot_lot (by exact fun _ => rfl), known]
    rfl
  have cell (d : CellNo) :
      (((s.onLot id fun l => { l with state := .bound, cell := some c }).setCell c y).cell d).bound
        = if d = c then some id else (s.cell d).bound := by
    split
    · rename_i here
      rw [here, State.setCell_cell_same, bound]
    · rename_i away
      rw [State.setCell_cell_ne _ _ away]
      rfl
  have unnamed := h.unnamed known (by simp [waits])
  refine h.relot (id := id) (m := { l with state := .bound, cell := some c }) (State.onLot_ids fun _ => rfl) lot
    (by simp) (fun d => ?_) (fun d k other => ?_) (fun w mem => ⟨mem, fun same => absurd same (out w mem)⟩)
    fun r mem => ⟨mem, ?_⟩
  · rw [cell]
    split
    · rename_i here
      simp [here]
    · rename_i away
      exact iff_of_false (unnamed d) (by simpa using Ne.symm away)
  · rw [cell]
    split
    · rename_i here
      subst here
      rw [free]
      simp [Ne.symm other]
    · rfl
  · rintro rfl
    obtain ⟨m, known', past⟩ := h.shipments r mem
    obtain rfl := Option.some.inj (known.symm.trans known')
    exact absurd waits past.1

/-- A change of a lot that leaves its holds leaves which lots are held. -/
theorem State.onLot_keepsUnheld {s : State} {id : Id} {f : Lot → Lot} (keep : ∀ l, (f l).id = l.id)
    (same : ∀ l, (f l).unheld = l.unheld) : (s.onLot id f).lotUnheld = s.lotUnheld := by
  funext k
  rw [State.lotUnheld, State.onLot_lot keep]
  split
  · rename_i here
    subst here
    rw [Option.map_map, State.lotUnheld]
    congr 2
    exact funext same
  · rfl

theorem State.HoldsCounted.onLot {s : State} (h : s.HoldsCounted) {id : Id} {f : Lot → Lot}
    (keep : ∀ l, (f l).id = l.id) (same : ∀ l, (f l).holdCount = l.holdCount) : (s.onLot id f).HoldsCounted := by
  refine h.of_counts rfl fun k => ?_
  rw [State.onLot_lot keep]
  split
  · rename_i here
    subst here
    rw [Option.map_map]
    congr 1
    exact funext same
  · rfl

namespace State.Agreed

variable {s t : State} {b : Option (CellNo × Cell)} {c : CellNo} {x : Cell} {id : Id}

/-! ## Ratio checks and the sample decision -/

theorem checkYield (h : s.Agreed b) (src : Option Port) (id : Id) : (s.checkYield src id).Agreed b := by
  unfold State.checkYield
  split
  · exact h
  · split
    · exact of_ite (fun _ => h.placeHold ..) fun _ => h
    · exact h

theorem checkBin (h : s.Agreed b) (src : Option Port) (id : Id) (bin : Fin 16) :
    (State.checkBin src id s bin).Agreed b := by
  unfold State.checkBin
  split
  · exact h
  · dsimp only
    split
    · exact of_ite (fun _ => h.placeHold ..) fun _ => h
    · exact h

theorem foldl {α : Type} {f : State → α → State} (step : ∀ s a, State.Agreed b s → (f s a).Agreed b) (h : s.Agreed b)
    (as : List α) : (as.foldl f s).Agreed b := by
  induction as generalizing s with
  | nil => exact h
  | cons a as ih => exact ih (step s a h)

theorem checkRatios (h : s.Agreed b) (src : Option Port) (id : Id) : (s.checkRatios src id).Agreed b :=
  foldl (fun _ _ h => h.checkBin ..) (h.checkYield src id) _

theorem decideSample (h : s.Agreed b) (id : Id) : (s.decideSample id).Agreed b := by
  unfold State.decideSample
  split
  · rename_i l known
    refine of_ite (fun tested => ?_) fun _ => h
    have tested : l.state = .tested := of_decide_eq_true (Bool.and_eq_true_iff.mp tested).1
    have past (m : Lot) (known' : s.lot id = some m) : m.Past := by
      obtain rfl := Option.some.inj (known.symm.trans known')
      simp [Lot.Past, tested]
    refine of_ite (fun _ => ?_) fun _ => ?_
    · exact (h.onLot id _ fun m known' => .of_past (past m known') (by simp [Lot.Past])).nlot id .accepted
    · have sent := h.onLot id
        (fun m => { m with sampleSize := some (sampleSize (s.product l) (l.passed (s.plan (s.product l)))),
                           state := .sampling, samplePending := true })
        fun m known' => .of_past (past m known') (by simp [Lot.Past])
      exact (sent.notify ..).nlot id .sampling
  · exact h

theorem attentionTest (h : s.Agreed b) : s.attentionTest.Agreed b := of_ite (fun _ => h.of_same) fun _ => h

/-! ## Run open and pass completion (R102, R103, R109, R110) -/

/-- A run opens for the unheld lot of the cell at work, or the lot comes to be held and the cell is PAUSED. -/
theorem openRun (h : s.Agreed (some (c, x))) {l : Lot} (bound : x.bound = some l.id) (unheld : s.lotUnheld l.id = true)
    (src : Option Port) : (s.openRun src c l).Agreed none := by
  obtain ⟨m, known, -⟩ := h.linked.names c l.id (by rw [h.cell, bound])
  refine of_ite (fun _ => ?_) fun _ => ?_
  · have placed := h.placeHold src l.id .site c.val 0
    refine placed.moveCell_close rfl ⟨placed.cell_ready.paused (by simp [bound]), by simp, fun _ id named => ?_⟩
    obtain rfl := Option.some.inj (bound.symm.trans named)
    exact State.placeHold_held h.holds known ..
  · have counted := h.onLot l.id (fun m => { m with runCount := l.runCount + 1 }) fun _ _ => .of_same
    refine (counted.moveCell_close rfl ⟨h.cell_ready.running (by simp [bound]) ?_, fun _ id named => ?_, by simp⟩)
      |>.notifyMembers c _
    · exact ⟨fun _ => rfl, by simp, by simp [Run.opened], by simp [Run.opened], by simp [Run.opened]⟩
    · obtain rfl := Option.some.inj (bound.symm.trans named)
      rw [State.onLot_lotUnheld known (by exact fun _ => rfl), if_pos rfl]
      rw [State.lotUnheld_eq known] at unheld
      exact unheld

/-- The lot leaves the cell at work TESTED, and the cell is IDLE. -/
theorem lotTested (h : s.Agreed (some (c, x))) (bound : x.bound = some id) (src : Option Port) :
    (s.lotTested src c id).Agreed none := by
  have at_c : (s.cell c).bound = some id := by rw [h.cell, bound]
  let f : Lot → Lot := fun l => { l with cell := none, state := .tested }
  let t : State := (s.onLot id f).setCell c { x with bound := none }
  have ready : ({ x with bound := none } : Cell).Ready := ⟨h.cell_ready.base.of_same, h.cell_ready.2, h.cell_ready.3⟩
  have open_t : t.Agreed (some (c, { x with bound := none })) :=
    h.reopen only_some (h.linked.unlink at_c (f := f) (fun _ => rfl) (fun _ => rfl) (by simp [f]) rfl)
      ((h.holds.onLot (f := f) (fun _ => rfl) fun _ => rfl).of_counts rfl fun _ => rfl)
      (fun d away => by simp [t, away])
      (fun _ _ k _ => congrFun (State.onLot_keepsUnheld (f := f) (fun _ => rfl) fun _ => rfl) k) (by simp [t]) ready
  have let_go : ((s.onLot id f).onCell c fun x => { x with bound := none }).Agreed
      (some (c, { x with bound := none })) := by
    rw [State.onCell_eq, show (s.onLot id f).cell c = x from h.cell]
    exact open_t
  have left := let_go.of_onlyPorts ((State.onlyPorts_nlot (s.onLot id f) id .tested none).onCell c _)
  exact ((left.checkRatios src id).decideSample id).moveCell_close rfl (.of_sound (ready.idle rfl) (by simp) (by simp))

/-- A cell at work with an unheld lot goes on. -/
theorem goOn (h : s.Agreed (some (c, x))) (bound : x.bound = some id) (unheld : s.lotUnheld id = true)
    (src : Option Port) : (s.goOn src c).Agreed none := by
  obtain ⟨l, known, -, -, rfl, at_c⟩ := h.linked.boundLot (by rw [h.cell, bound])
  simp only [State.goOn, at_c]
  refine of_ite (fun _ => h.openRun bound unheld src) fun _ => ?_
  have completed := h.onLot l.id (fun m => m.completePass (s.product l).maxRetests)
    (fun m _ => m.completePass_stays _) fun m => (m.completePass_stays _).id
  refine of_ite (fun _ => ?_) fun _ => completed.lotTested bound src
  have same := l.completePass_stays (s.product l).maxRetests
  refine completed.openRun (by rw [same.id, bound]) ?_ src
  rw [same.id, State.onLot_lotUnheld known (fun m => (m.completePass_stays _).id), if_pos rfl, same.unheld,
    ← State.lotUnheld_eq known, unheld]

/-! ## Preparation (R91 to R94) -/

theorem testPreparation (h : s.Agreed none) (src : Option Port) (c : CellNo) :
    (s.testPreparation src c).Agreed none := by
  unfold State.testPreparation
  split
  · rename_i q prep
    refine of_ite (fun _ => ?_) fun _ => h
    have sound := (h.cells c (by simp)).sound
    have preparing : (s.cell c).state = .preparing := sound.preparation.mp (by simp [prep])
    have ready : ({ s.cell c with preparation := none } : Cell).Ready :=
      ⟨(sound.base (by simp [preparing, CellState.formed])).of_same, rfl, sound.run_none (by simp [preparing])⟩
    have opened := h.onCell_open (c := c) (f := fun x => { x with preparation := none }) rfl ready
    dsimp only
    split
    · rename_i id bound
      have bound' : ({ s.cell c with preparation := none } : Cell).bound = some id := by rw [← opened.cell, bound]
      refine of_ite (fun unheld => opened.goOn bound' unheld src) fun held => ?_
      refine opened.moveCell_close rfl ⟨ready.paused (by rw [bound']; simp), by simp, fun _ k named => ?_⟩
      obtain rfl := Option.some.inj (bound'.symm.trans named)
      simpa using held
    · rename_i unbound
      rw [opened.cell] at unbound
      exact absurd unbound (sound.working (by simp [preparing]))
  · exact h

theorem buildProgram (h : s.Agreed (some (c, x))) (p : Product) :
    ∃ y, (s.buildProgram c p).1.Agreed (some (c, y)) ∧ y.bound = x.bound := by
  unfold State.buildProgram
  split
  · exact ⟨x, h, rfl⟩
  · have told := h.notifyMember (s.cell c).tester fun id => .nldp id c p.program
    exact ⟨_, told.onCell_ready (f := fun x => { x with loadRequest := some p.program }) rfl
      ⟨h.cell_ready.base.of_same, h.cell_ready.2, h.cell_ready.3⟩, rfl⟩

theorem buildThermal (h : s.Agreed (some (c, x))) (p : Product) :
    ∃ y, (s.buildThermal c p).1.Agreed (some (c, y)) ∧ y.bound = x.bound := by
  unfold State.buildThermal
  dsimp only
  split
  · split
    · split <;> exact ⟨x, h, rfl⟩
    · exact ⟨x, h, rfl⟩
  · have told := h.notifyMember (s.cell c).handler fun id => .nstp id c p.setPoint
    exact ⟨_, told.onCell_ready (f := fun x => { x with thermal := ⟨some p.setPoint, false, 0⟩ }) rfl
      ⟨h.cell_ready.base.of_same, h.cell_ready.2, h.cell_ready.3⟩, rfl⟩

/-- The cell at work prepares for its lot. -/
theorem prepare (h : s.Agreed (some (c, x))) (bound : x.bound = some id) (src : Option Port) :
    (s.prepare src c).Agreed none := by
  obtain ⟨l, -, -, -, -, at_c⟩ := h.linked.boundLot (by rw [h.cell, bound])
  simp only [State.prepare, at_c]
  obtain ⟨y, built, same⟩ := h.buildProgram (s.product l)
  obtain ⟨z, built, same'⟩ := built.buildThermal (s.product l)
  have named : z.bound ≠ none := by rw [same', same, bound]; simp
  refine (built.moveCell_close rfl (.of_sound (built.cell_ready.preparing named _) ?_ ?_)).testPreparation src c <;> simp

end State.Agreed
end Sys2Proof.Machine
end

section
/-! Bindings, unbindings, the ends of runs and preparations, and lots that become unheld keep lots and cells in
agreement (chapters 5 and 6, R148). -/

namespace Sys2Proof.Machine

-- one theorem at a time: many at once, each with a thread of its own, can exceed the memory limit
set_option Elab.async false

/-! ## What the dispatcher picks -/

theorem State.bindable_iff {s : State} {c : CellNo} {w : Waiting} : s.bindable c w = true ↔
    ∃ l, s.lot w.lot = some l ∧ s.eligible l c = true ∧ (s.clock.dispatchGate ≠ .closed ∨ l.basePriority = 7) := by
  unfold State.bindable
  cases s.lot w.lot <;> simp

/-- A cell served takes a lot of the queue that is bindable to it (R82). -/
theorem State.choice_bindable {s : State} {c : CellNo} {id : Id} (h : s.choice c = some id) :
    ∃ w ∈ s.queue, w.lot = id ∧ s.bindable c w = true := by
  unfold State.choice at h
  split at h
  · cases h
  · rename_i first rest found
    have mem : ((((first :: rest).filter fun w => w.priority = first.priority).find? (s.holdsProgram c)).getD first)
        ∈ first :: rest := by
      cases pick : ((first :: rest).filter fun w => w.priority = first.priority).find? (s.holdsProgram c) with
      | none => simp
      | some w => exact (List.mem_filter.mp (List.mem_of_find?_eq_some pick)).1
    rw [← found] at mem
    obtain ⟨ordered, bindable⟩ := List.mem_filter.mp mem
    refine ⟨_, (sortBy_perm s.ahead s.queue).mem_iff.mp ordered, ?_, bindable⟩
    rw [← found] at h
    exact Option.some.inj h

/-- The offer picks a cell to which the lot is bindable (R83). -/
theorem State.pickCell_bindable {s : State} {c : CellNo} {w : Waiting} (h : s.pickCell w = some c) :
    s.bindable c w = true := by
  have mem : c ∈ (List.finRange 16).filter fun c => s.bindable c w := by
    unfold State.pickCell at h
    cases pick : ((List.finRange 16).filter fun c => s.bindable c w).find? fun c => s.holdsProgram c w with
    | some d =>
      simp only [pick, Option.some_or] at h
      exact Option.some.inj h ▸ List.mem_of_find?_eq_some pick
    | none =>
      simp only [pick, Option.none_or] at h
      exact List.mem_of_head? h
  exact (List.mem_filter.mp mem).2

/-! ## One cell apart -/

/-- Lots and cells agree but for what the state of one cell asks of that cell's parts. -/
structure State.Around (c : CellNo) (s : State) : Prop where
  linked : s.Linked
  holds  : s.HoldsCounted
  cells  : ∀ d, d ≠ c → (s.cell d).Fits s.lotUnheld

namespace State.Around

variable {s t : State} {c : CellNo} {x y : Cell} {f : Cell → Cell}

theorem of_agreed (h : s.Agreed none) : s.Around c := ⟨h.linked, h.holds, fun d _ => h.cells d (by simp)⟩

theorem of_work (h : s.Agreed (some (c, x))) : s.Around c :=
  ⟨h.linked, h.holds, fun d away => h.cells d (Agreed.only_some d away)⟩

theorem agreed (h : s.Around c) (fits : (s.cell c).Fits s.lotUnheld) : s.Agreed none :=
  ⟨h.linked, h.holds, fun d _ => by
    by_cases here : d = c
    · exact here ▸ fits
    · exact h.cells d here, fun _ _ work => by cases work⟩

theorem work (h : s.Around c) (ready : (s.cell c).Ready) : s.Agreed (some (c, s.cell c)) where
  linked := h.linked
  holds := h.holds
  cells d other := h.cells d fun e => other (by rw [e]; rfl)
  ready d y work := by cases work; exact ⟨rfl, ready⟩

theorem setCell (h : s.Around c) (same : y.bound = (s.cell c).bound) : (s.setCell c y).Around c :=
  ⟨Agreed.setCell_linked h.linked same, h.holds.of_counts rfl fun _ => rfl, fun d away => by
    rw [State.setCell_cell_ne s y away]
    exact h.cells d away⟩

theorem onCell (h : s.Around c) (same : (f (s.cell c)).bound = (s.cell c).bound) : (s.onCell c f).Around c :=
  h.setCell same

/-- The cell gets parts that suit its state. -/
theorem place (h : s.Around c) (same : y.bound = (s.cell c).bound) (fits : y.Fits s.lotUnheld) :
    (s.setCell c y).Agreed none := (h.setCell same).agreed (by rw [State.setCell_cell_same]; exact fits)

theorem moveCell (h : s.Around c) (same : (f (s.cell c)).bound = (s.cell c).bound)
    (fits : (f (s.cell c)).Fits s.lotUnheld) : (s.moveCell c f).Agreed none :=
  (h.place same fits).of_onlyPorts (State.onlyPorts_ncel _ c)

end State.Around

namespace State.Agreed

variable {s t : State} {b : Option (CellNo × Cell)} {c : CellNo} {x : Cell} {id : Id}

/-! ## Binding and serving (R82, R83, R85) -/

/-- A lot of the queue and an IDLE cell are bound. -/
theorem bind (h : s.Agreed none) {w : Waiting} (queued : w ∈ s.queue) (bindable : s.bindable c w = true)
    (src : Option Port) : (s.bind src w.lot c).Agreed none := by
  obtain ⟨l, known, eligible, -⟩ := State.bindable_iff.mp bindable
  have idle := State.eligible_idle eligible
  have sound := (h.cells c (by simp)).sound
  have ready : ({ s.cell c with bound := some w.lot } : Cell).Ready :=
    ⟨(sound.base (by simp [idle, CellState.formed])).of_same, sound.preparation_none (by simp [idle]),
      sound.run_none (by simp [idle])⟩
  have waits : l.state = .waiting := by
    obtain ⟨m, known', waits⟩ := h.linked.queue w queued
    obtain rfl := Option.some.inj (known.symm.trans known')
    exact waits
  let f : Lot → Lot := fun l => { l with state := .bound, cell := some c }
  have gone := h.leaveQueue w.lot
  have linked := gone.linked.link (y := { s.cell c with bound := some w.lot }) known waits (sound.free (.inr idle))
    (fun v mem => by simpa using (List.mem_filter.mp mem).2) rfl
  have bound : (((s.leaveQueue w.lot).onLot w.lot f).setCell c { s.cell c with bound := some w.lot }).Agreed
      (some (c, { s.cell c with bound := some w.lot })) :=
    gone.reopen only_none linked ((gone.holds.onLot (f := f) (fun _ => rfl) fun _ => rfl).of_counts rfl fun _ => rfl)
      (fun d away => by rw [State.setCell_cell_ne _ _ away]; rfl)
      (fun _ _ k _ => congrFun (State.onLot_keepsUnheld (f := f) (fun _ => rfl) fun _ => rfl) k)
      (State.setCell_cell_same ..) ready
  have shown : ((((s.leaveQueue w.lot).onLot w.lot f).nlot w.lot .bound).onCell c fun x =>
      { x with bound := some w.lot }).Agreed (some (c, { s.cell c with bound := some w.lot })) :=
    of_onlyPorts bound ((State.onlyPorts_nlot _ w.lot .bound none).onCell c fun x => { x with bound := some w.lot })
  exact shown.prepare rfl src

theorem serve (h : s.Agreed none) (src : Option Port) (c : CellNo) : (s.serve src c).Agreed none := by
  refine State.serve_keeps (State.Agreed none) (fun u id choice h => ?_) h
  obtain ⟨w, queued, rfl, bindable⟩ := State.choice_bindable choice
  exact h.bind queued bindable src

theorem offer (h : s.Agreed none) (src : Option Port) (id : Id) : (s.offer src id).Agreed none := by
  unfold State.offer
  generalize s.queue.length = fuel
  induction fuel generalizing s with
  | zero => exact h
  | succ n ih =>
    unfold State.offerUpTo
    split
    · exact h
    · rename_i c picked
      refine of_ite (fun _ => ih (h.serve src c)) fun _ => ?_
      obtain ⟨w, found, picked⟩ := Option.bind_eq_some_iff.mp picked
      have at_id : w.lot = id := by simpa using List.find?_some found
      exact at_id ▸ (h.bind (List.mem_of_find?_eq_some found) (State.pickCell_bindable picked) src).serve src c

theorem joinAndOffer (h : s.Agreed none) (src : Option Port) (waits : ∀ l, s.lot id = some l → l.state = .waiting) :
    (s.joinAndOffer src id).Agreed none := (h.joinQueue waits).offer src id

theorem serveIdle (h : s.Agreed none) (src : Option Port) : (s.serveIdle src).Agreed none :=
  foldl (fun _ _ h => h.serve ..) h _

end State.Agreed

namespace State.Around

variable {s t : State} {c : CellNo} {x y : Cell} {id : Id}

/-- An unbinding (R86) that gives the cell parts that suit its new state. -/
theorem unbind (h : s.Around c) (bound : (s.cell c).bound = some id) {f : Cell → Cell}
    (sound : (f { s.cell c with bound := none }).Sound) (unbound : (f { s.cell c with bound := none }).bound = none)
    (state : (f { s.cell c with bound := none }).state = .idle ∨ (f { s.cell c with bound := none }).state = .vacant)
    (src : Option Port) : (s.unbind src c id f).Agreed none := by
  let g : Lot → Lot := fun l => { l with cell := none, state := .waiting }
  let y := f { s.cell c with bound := none }
  have linked := h.linked.unlink (f := g) bound (fun _ => rfl) (fun _ => rfl) (by simp [g]) unbound
  have unheld : ((s.onLot id g).setCell c y).lotUnheld = s.lotUnheld :=
    State.onLot_keepsUnheld (f := g) (fun _ => rfl) fun _ => rfl
  have freed : ((s.onLot id g).setCell c y).Agreed none := by
    refine agreed (c := c) ⟨linked, ?_, fun d away => ?_⟩ ?_
    · exact (h.holds.onLot (f := g) (fun _ => rfl) fun _ => rfl).of_counts rfl fun _ => rfl
    · rw [unheld, State.setCell_cell_ne _ _ away]
      exact h.cells d away
    · rw [State.setCell_cell_same]
      refine .of_sound sound ?_ ?_ <;> rcases state with e | e <;> simp [y, e]
  have moved : (((s.onLot id g).nlot id .unbound).moveCell c fun x => f { x with bound := none }).Agreed none := by
    have shown := Agreed.of_onlyPorts freed
      ((State.onlyPorts_nlot (s.onLot id g) id .unbound none).onCell c fun x => f { x with bound := none })
    exact shown.of_onlyPorts (State.onlyPorts_ncel _ c)
  have waits (l : Lot) (known : (((s.onLot id g).nlot id .unbound).moveCell c fun x =>
      f { x with bound := none }).lot id = some l) : l.state = .waiting := by
    have known : ((s.onLot id g).nlot id .unbound).lot id = some l := known
    rw [State.nlot_lot, State.onLot_lot (by exact fun _ => rfl), if_pos rfl] at known
    obtain ⟨m, -, rfl⟩ := Option.map_eq_some_iff.mp known
    rfl
  have served := (Agreed.of_ite (p := (((s.onLot id g).nlot id .unbound).moveCell c fun x =>
    f { x with bound := none }).lotUnheld id = true) (fun _ => moved.joinQueue waits) fun _ => moved).serve src c
  exact Agreed.of_ite (fun _ => served.offer src id) fun _ => served

/-- A cell ready for its next state lets its lot go and is IDLE. -/
theorem unbind_idle (h : s.Around c) (bound : (s.cell c).bound = some id) (ready : (s.cell c).Ready)
    (src : Option Port) : (s.unbind src c id fun x => { x with state := .idle }).Agreed none := by
  have ready : ({ s.cell c with bound := none } : Cell).Ready := ⟨ready.base.of_same, ready.2, ready.3⟩
  exact h.unbind bound (ready.idle rfl) rfl (.inl rfl) src

end State.Around

namespace State.Agreed

variable {s t : State} {b : Option (CellNo × Cell)} {c : CellNo} {x : Cell} {id : Id}

/-! ## The close of a run (R108, R110) -/

theorem placeCloseHold (h : s.Agreed b) (src : Option Port) (id : Id) (hold : CloseHold) :
    (s.placeCloseHold src id hold).Agreed b := by
  unfold State.placeCloseHold
  split
  · exact h.placeHold ..
  · exact h

theorem afterClose (h : s.Agreed (some (c, x))) (bound : x.bound = some id) (src : Option Port) :
    (s.afterClose src c id).Agreed none := by
  obtain ⟨l, known, -, -, rfl, -⟩ := h.linked.boundLot (by rw [h.cell, bound])
  simp only [State.afterClose, known]
  have same := l.completePass_stays (s.product l).maxRetests
  have completed := h.onLot l.id (fun m => m.completePass (s.product l).maxRetests)
    (fun m _ => m.completePass_stays _) fun m => (m.completePass_stays _).id
  have next : (if l.hasWork = true then s
      else s.onLot l.id fun m => m.completePass (s.product l).maxRetests).Agreed (some (c, x)) :=
    of_ite (fun _ => h) fun _ => completed
  refine of_ite (fun _ => next.lotTested bound src) fun _ => of_ite (fun unheld => ?_) fun held => ?_
  · refine next.openRun ?_ ?_ src
    · rw [bound]
      split
      · rfl
      · rw [same.id]
    · split
      · rwa [if_pos ‹_›] at unheld
      · rw [if_neg ‹_›] at unheld
        rwa [same.id]
  · refine next.moveCell_close rfl ⟨h.cell_ready.paused (by simp [bound]), by simp, fun _ k named => ?_⟩
    obtain rfl := Option.some.inj (bound.symm.trans named)
    simpa using held

/-- The open run of a cell closes whose other parts are those of a cell at work. -/
theorem closeRun (h : s.Around c) (bound : (s.cell c).bound ≠ none) (base : (s.cell c).Base)
    (preparation : (s.cell c).preparation = none) (src : Option Port) (hold : CloseHold) (reason : EndReason) :
    (s.closeRun src c hold reason).Agreed none := by
  obtain ⟨id, bound⟩ := Option.ne_none_iff_exists'.mp bound
  simp only [State.closeRun, bound]
  have ended := (h.onCell (f := fun x => { x with run := none }) rfl).work (by
    rw [State.onCell_eq, State.setCell_cell_same]
    exact ⟨base.of_same, preparation, rfl⟩)
  refine (((ended.placeCloseHold ..).placeCloseHold ..).afterClose ?_ src).serve src c
  rw [State.onCell_eq, State.setCell_cell_same]
  exact bound

/-- A cell in a state of a run has what the close of the run needs. -/
theorem closeRun_of_running (h : s.Agreed none)
    (running : (s.cell c).state = .running ∨ (s.cell c).state = .stopping ∨ (s.cell c).state = .closing)
    (src : Option Port) (hold : CloseHold) (reason : EndReason) : (s.closeRun src c hold reason).Agreed none := by
  have sound := (h.cells c (by simp)).sound
  refine closeRun (.of_agreed h) (sound.working ?_) (sound.base ?_) (sound.preparation_none ?_) src hold reason
  all_goals rcases running with e | e | e <;> simp [e, CellState.formed]

/-- An ERND is evaluated (R106): the run closes, or the cell is CLOSING. -/
theorem evaluateEnd (h : s.Agreed none) (open_ : (s.cell c).state = .running ∨ (s.cell c).state = .stopping)
    (src : Option Port) (r : Run) (count : Nat) (reason : EndReason) :
    (s.evaluateEnd src c r count reason).1.Agreed none := by
  have sound := (h.cells c (by simp)).sound
  have running : (s.cell c).state = .running ∨ (s.cell c).state = .stopping ∨ (s.cell c).state = .closing :=
    open_.imp_right .inl
  let y : Cell := { s.cell c with run := some { r with handlerCount := some count, endReason := some reason } }
  have ended : (s.setCell c y).Around c := (State.Around.of_agreed h).setCell rfl
  have at_c : (s.setCell c y).cell c = y := State.setCell_cell_same ..
  unfold State.evaluateEnd
  simp only [State.onCell_eq]
  split
  · refine ended.moveCell rfl (.of_sound ?_ (by simp) (by simp))
    rw [at_c]
    refine sound.runs running (.inr (.inr rfl)) (r := { r with
      handlerCount := some count, endReason := some reason, closeDeadline := some s.tables.parameters.close }) ?_
    exact ⟨by simp, by simp, by simp, by simp, by simp⟩
  · refine closeRun ended ?_ ?_ ?_ src _ reason
    · rw [at_c]
      exact sound.working (by rcases running with e | e | e <;> simp [e])
    · rw [at_c]
      exact (sound.base (by rcases running with e | e | e <;> simp [e, CellState.formed])).of_same
    · rw [at_c]
      exact sound.preparation_none (by rcases running with e | e | e <;> simp [e])

theorem testClose (h : s.Agreed none) (src : Option Port) (c : CellNo) : (s.testClose src c).Agreed none := by
  unfold State.testClose
  split
  · split
    · exact of_ite (fun _ => h.closeRun_of_running (by tauto) ..) fun _ => h
    · exact h
  · exact h

theorem closeExpired (h : s.Agreed none) (src : Option Port) (c : CellNo) : (s.closeExpired src c).Agreed none := by
  unfold State.closeExpired
  split
  · split
    · exact h.closeRun_of_running (by tauto) ..
    · exact h
  · exact h

/-! ## Failures of a preparation (R97, R100) -/

theorem loadFailed (h : s.Agreed none) (preparing : (s.cell c).state = .preparing) (src : Option Port) :
    (s.loadFailed src c).Agreed none := by
  have sound := (h.cells c (by simp)).sound
  obtain ⟨id, bound⟩ := Option.ne_none_iff_exists'.mp (sound.working (by simp [preparing]))
  obtain ⟨l, -, -, -, rfl, at_c⟩ := h.linked.boundLot bound
  simp only [State.loadFailed, at_c]
  refine ((State.Around.of_agreed h).onCell rfl).unbind_idle ?_ ?_ src <;> rw [State.onCell_eq, State.setCell_cell_same]
  · exact bound
  · exact ⟨(sound.base (by simp [preparing, CellState.formed])).of_same, rfl, sound.run_none (by simp [preparing])⟩

theorem settleFailed (h : s.Agreed none) (preparing : (s.cell c).state = .preparing) (src : Option Port) :
    (s.settleFailed src c).Agreed none := by
  have sound := (h.cells c (by simp)).sound
  obtain ⟨id, bound⟩ := Option.ne_none_iff_exists'.mp (sound.working (by simp [preparing]))
  obtain ⟨l, -, -, -, rfl, at_c⟩ := h.linked.boundLot bound
  simp only [State.settleFailed, at_c]
  have ready : ({ s.cell c with thermal := Thermal.clear, preparation := none, bound := none,
                                mode := .maintenance } : Cell).Ready :=
    ⟨(sound.base (by simp [preparing, CellState.formed])).of_same, rfl, sound.run_none (by simp [preparing])⟩
  refine ((State.Around.of_agreed h).onCell rfl).unbind ?_ ?_ ?_ ?_ src <;>
    rw [State.onCell_eq, State.setCell_cell_same]
  · exact bound
  · exact ready.idle rfl
  · exact .inl rfl

/-! ## A lot becomes unheld (R148) -/

/-- A lot's holds are lifted, and it goes on from where it was stopped. -/
theorem becomeUnheld (h : s.Agreed none) (linked : t.Linked) (holds : t.HoldsCounted) (cells : ∀ d, t.cell d = s.cell d)
    (others : ∀ k, k ≠ id → t.lotUnheld k = s.lotUnheld k) (unheld : t.lotUnheld id = true) (src : Option Port) :
    (t.becomeUnheld src id).Agreed none := by
  have fits (d : CellNo) (other : (t.cell d).bound = some id → (t.cell d).state ≠ .paused) :
      (t.cell d).Fits t.lotUnheld := by
    have fits := h.cells d (by simp)
    rw [cells] at other ⊢
    refine ⟨fits.sound, fun running k bound => ?_, fun paused k bound => ?_⟩
    · by_cases same : k = id
      · rw [same, unheld]
      · rw [others k same, fits.running running k bound]
    · have away : k ≠ id := fun same => other (same ▸ bound) paused
      rw [others k away, fits.paused paused k bound]
  have still (quiet : ∀ d, (t.cell d).bound = some id → (t.cell d).state ≠ .paused) : t.Agreed none :=
    ⟨linked, holds, fun d _ => fits d (quiet d), fun _ _ work => by cases work⟩
  unfold State.becomeUnheld
  cases known : t.lot id with
  | none =>
    refine still fun d bound => ?_
    obtain ⟨l, known', -⟩ := linked.names d id bound
    simp [known] at known'
  | some l =>
    have unbound (free : l.state ≠ .bound) : t.Agreed none :=
      still fun d bound => absurd bound (linked.unnamed known free d)
    dsimp only
    split
    · rename_i waiting
      refine (unbound (by simp [waiting])).joinAndOffer src fun m known' => ?_
      obtain rfl := Option.some.inj (known.symm.trans known')
      exact waiting
    · rename_i at_l
      obtain ⟨c, at_c⟩ := Option.ne_none_iff_exists'.mp ((linked.bound id l known).mp at_l)
      have bound := linked.named id l c known at_c
      have only (d : CellNo) (bound : (t.cell d).bound = some id) : d = c :=
        Option.some.inj (((linked.cell_eq known d).mp bound).symm.trans at_c)
      rw [at_c]
      refine of_ite (fun paused => ?_) fun other => still fun d named => only d named ▸ other
      have around : t.Around c := ⟨linked, holds, fun d away => fits d fun named => absurd (only d named) away⟩
      have sound : (t.cell c).Sound := by rw [cells]; exact (h.cells c (by simp)).sound
      have ready : (t.cell c).Ready :=
        ⟨sound.base (by simp [paused, CellState.formed]), sound.preparation_none (by simp [paused]),
          sound.run_none (by simp [paused])⟩
      exact ((around.work ready).goOn bound unheld src).serve src c
    · rename_i tested
      exact (unbound (by simp [tested])).decideSample id
    · rename_i sampling
      exact of_ite (fun _ => unbound (by simp [sampling])) fun _ => (unbound (by simp [sampling])).placeHold ..
    · rename_i accepted
      exact unbound (by simp [accepted])
    · rename_i released
      exact unbound (by simp [released])

end State.Agreed
end Sys2Proof.Machine
end

section
/-! Negotiation, formation, disturbances, gates, ticks and resets keep lots and cells in agreement (chapters 3, 10 and
11). -/

namespace Sys2Proof.Machine

-- one theorem at a time: many at once, each with a thread of its own, can exceed the memory limit
set_option Elab.async false

/-! ## A docked cell with no work in hand -/

theorem subset_refl {n : Nat} (v : BitVec n) : subset v v = true := by simp [subset]

/-- A cell has its members, and neither a preparation nor a run: what OFFER, LOST and FAULT leave of a cell. -/
structure Cell.Docked (x : Cell) : Prop where
  handler     : x.handler ≠ none
  tester      : x.tester ≠ none
  preparation : x.preparation = none
  run         : x.run = none
  sites       : subset x.active ((x.common.map Capability.sites).getD 0) = true

/-- The states between a docking and a formed cell. -/
def CellState.unformed (st : CellState) : Prop := st ∈ [CellState.offer, .confirm, .fault, .lost]

section docked
variable {x : Cell}

/-- A cell that is not VACANT is docked once its work has ended. -/
theorem Cell.Sound.ended (h : x.Sound) (used : x.state ≠ .vacant) :
    ({ x with run := none, preparation := none } : Cell).Docked :=
  ⟨h.handler.not.mpr used, h.tester.not.mpr used, rfl, rfl, h.sites⟩

theorem Cell.Sound.docked (h : x.Sound) (unformed : x.state.unformed) : x.Docked := by
  simp only [CellState.unformed, List.mem_cons, List.not_mem_nil, or_false] at unformed
  refine ⟨h.handler.not.mpr ?_, h.tester.not.mpr ?_, h.preparation_none ?_, h.run_none ?_, h.sites⟩ <;>
    rcases unformed with e | e | e | e <;> simp [e]

/-- The parts that tell the states of a docked cell apart (3.2). -/
theorem Cell.Docked.sound (h : x.Docked) (unformed : x.state.unformed)
    (negotiation : x.negotiation.isSome = true ↔ x.state = .offer ∨ x.state = .confirm)
    (proposed : ∀ n, x.negotiation = some n → (n.proposed.isSome = true ↔ x.state = .confirm))
    (fault : x.fault.isSome = true ↔ x.state = .fault) : x.Sound := by
  simp only [CellState.unformed, List.mem_cons, List.not_mem_nil, or_false] at unformed
  refine ⟨iff_of_false h.handler ?_, iff_of_false h.tester ?_, negotiation, proposed,
    iff_of_false (by simp [h.preparation]) ?_, iff_of_false (by simp [h.run]) ?_, by simp [h.run], fault, ?_, ?_, ?_,
    h.sites⟩
  all_goals rcases unformed with e | e | e | e <;> simp [e]

theorem Cell.Docked.offer (h : x.Docked) (handler tester : Bool) (n : Nat) :
    ({ x with state := .offer, fault := none
              negotiation := some (Negotiation.fresh handler tester n) } : Cell).Sound :=
  Cell.Docked.sound ⟨h.handler, h.tester, h.preparation, h.run, h.sites⟩ (by simp [CellState.unformed]) (by simp)
    (by rintro _ ⟨⟩; simp [Negotiation.fresh]) (by simp)

theorem Cell.Docked.lost (h : x.Docked) :
    ({ x with state := .lost, negotiation := none, fault := none } : Cell).Sound :=
  Cell.Docked.sound ⟨h.handler, h.tester, h.preparation, h.run, h.sites⟩ (by simp [CellState.unformed]) (by simp)
    (by simp) (by simp)

theorem Cell.Docked.fault (h : x.Docked) (reason : FaultReason) :
    ({ x with state := .fault, fault := some reason, negotiation := none } : Cell).Sound :=
  Cell.Docked.sound ⟨h.handler, h.tester, h.preparation, h.run, h.sites⟩ (by simp [CellState.unformed]) (by simp)
    (by simp) (by simp)

/-- A formed cell is ready for its next state. -/
theorem Cell.Docked.ready (h : x.Docked) (fault : x.fault = none) (cap : Capability) : (x.formed cap).Ready :=
  ⟨⟨h.handler, h.tester, rfl, fault, by simp [Cell.formed], by simp [Cell.formed, subset_refl]⟩, h.preparation, h.run⟩

/-- In OFFER and CONFIRM the negotiation may go on, with the proposed capability of the state. -/
theorem Cell.Sound.negotiates (h : x.Sound) (negotiating : x.state = .offer ∨ x.state = .confirm) {n : Negotiation}
    {st : CellState} (next : st = .offer ∨ st = .confirm) (proposed : n.proposed.isSome = true ↔ st = .confirm) :
    ({ x with state := st, negotiation := some n } : Cell).Sound := by
  have docked := h.docked (by rcases negotiating with e | e <;> simp [e, CellState.unformed])
  have fault : x.fault = none := by
    have none_of : ¬x.fault.isSome = true := by
      rw [h.fault]
      rcases negotiating with e | e <;> simp [e]
    simpa using none_of
  refine Cell.Docked.sound ⟨docked.handler, docked.tester, docked.preparation, docked.run, docked.sites⟩ ?_ ?_ ?_ ?_
  · rcases next with rfl | rfl <;> simp [CellState.unformed]
  · simpa using next
  · rintro _ ⟨⟩
    exact proposed
  · rcases next with rfl | rfl <;> simp [fault]

theorem Cell.Fits.of_vacant {u : Id → Bool} (vacant : x = Cell.vacant) : x.Fits u := by
  subst vacant
  exact .of_sound Cell.sound_vacant (by simp [Cell.vacant]) (by simp [Cell.vacant])

/-- A tick of the clock changes no part's presence. -/
theorem Cell.Sound.tick (h : x.Sound) : x.tick.Sound where
  handler := h.handler
  tester := h.tester
  negotiation := by simpa [Cell.tick] using h.negotiation
  proposed := by
    intro n ticked
    obtain ⟨m, negotiation, rfl⟩ := Option.map_eq_some_iff.mp ticked
    exact h.proposed m negotiation
  preparation := by simpa [Cell.tick] using h.preparation
  run := by simpa [Cell.tick] using h.run
  fits := by
    intro r ticked
    obtain ⟨q, run, rfl⟩ := Option.map_eq_some_iff.mp ticked
    have fits := h.fits q run
    exact ⟨fits.running, fits.stopping, fits.count, fits.reason, by simpa [Cell.tick] using fits.deadline⟩
  fault := h.fault
  working := h.working
  free := h.free
  formed := h.formed
  sites := h.sites

end docked

namespace State.Around

variable {s t : State} {c : CellNo} {id : Id}

/-- A docked cell enters OFFER (R38). -/
theorem enterOffer (h : s.Around c) (docked : (s.cell c).Docked) (handler tester : Bool) :
    (s.enterOffer c handler tester).Agreed none := by
  have moved := h.moveCell (f := fun x => { x with
      state := .offer, fault := none
      negotiation := some (Negotiation.fresh handler tester s.tables.parameters.negotiation) }) rfl
    (.of_sound (docked.offer handler tester _) (by simp) (by simp))
  have asked {u : State} (k : u.Agreed none) (reports : Bool) (m : Option Id) :
      (if reports = true then u else u.query c m).Agreed none := .of_ite (fun _ => k) fun _ => k.notifyMember _ _
  exact asked (asked moved handler _) tester _

theorem enterLost (h : s.Around c) (docked : (s.cell c).Docked) : (s.enterLost c).Agreed none :=
  h.moveCell rfl (.of_sound docked.lost (by simp) (by simp))

theorem enterFault (h : s.Around c) (docked : (s.cell c).Docked) (reason : FaultReason) :
    (s.enterFault c reason).Agreed none :=
  h.moveCell rfl (.of_sound (docked.fault reason) (by simp) (by simp))

theorem disturbMove (h : s.Around c) (docked : (s.cell c).Docked) (d : Disturbance) :
    (s.disturbMove c d).Agreed none := by
  cases d with
  | stale => exact h.enterLost docked
  | reannounce => exact Agreed.of_ite (fun _ => h.enterLost docked) fun _ => h.enterOffer docked _ _

/-- Formation succeeds (R42). -/
theorem formed (h : s.Around c) (docked : (s.cell c).Docked) (fault : (s.cell c).fault = none) (src : Option Port)
    (cap : Capability) : (s.formed src c cap).Agreed none := by
  have ready := docked.ready fault cap
  have open_c : (s.setCell c ((s.cell c).formed cap)).Agreed (some (c, (s.cell c).formed cap)) := by
    have work := (h.setCell (y := (s.cell c).formed cap) rfl).work
    rw [State.setCell_cell_same] at work
    exact work ready
  rw [State.formed_eq]
  cases bound : (s.cell c).bound with
  | none =>
    have unbound : ((s.cell c).formed cap).bound = none := bound
    have no_lot : (s.setCell c ((s.cell c).formed cap)).boundLot c = none := by
      rw [State.boundLot, State.setCell_cell_same, unbound]
      rfl
    rw [no_lot]
    exact (open_c.moveCell_close rfl (.of_sound (ready.idle unbound) (by simp) (by simp))).serve src c
  | some id =>
    have named : ((s.cell c).formed cap).bound = some id := bound
    have at_c : ((s.setCell c ((s.cell c).formed cap)).cell c).bound = some id := by rw [open_c.cell, named]
    obtain ⟨l, -, -, -, rfl, has⟩ := open_c.linked.boundLot at_c
    rw [has]
    refine Agreed.of_ite (fun _ => (open_c.prepare named src).serve src c) fun _ => ?_
    exact (of_work open_c).unbind_idle at_c (by rw [open_c.cell]; exact ready) src

end State.Around

namespace State.Agreed

variable {s t : State} {c : CellNo} {id : Id}

/-! ## Negotiation, disturbances and undocking (chapter 3) -/

theorem onEquip (h : s.Agreed none) (id : Id) (f : Entry → Entry) : (s.onEquip id f).Agreed none := by
  rw [State.onEquip_eq]
  exact h.of_same

theorem setEntry (h : s.Agreed none) (i : Position) (e : Option Entry) : (s.setEntry i e).Agreed none := h.of_same

theorem docked (h : s.Agreed none) (unformed : (s.cell c).state.unformed) : (s.cell c).Docked :=
  (h.cells c (by simp)).sound.docked unformed

theorem enterOffer (h : s.Agreed none) (unformed : (s.cell c).state.unformed) (handler tester : Bool := false) :
    (s.enterOffer c handler tester).Agreed none := (State.Around.of_agreed h).enterOffer (h.docked unformed) _ _

theorem enterFault (h : s.Agreed none) (unformed : (s.cell c).state.unformed) (reason : FaultReason) :
    (s.enterFault c reason).Agreed none := (State.Around.of_agreed h).enterFault (h.docked unformed) reason

theorem reported (h : s.Agreed none) (offer : (s.cell c).state = .offer) : (s.reported c).Agreed none := by
  unfold State.reported
  split
  · refine of_ite (fun _ => h.enterFault (by simp [offer, CellState.unformed]) _) fun _ => ?_
    have sound := (h.cells c (by simp)).sound
    obtain ⟨n, negotiation⟩ := Option.isSome_iff_exists.mp (sound.negotiation.mpr (.inl offer))
    refine (h.moveCell rfl (.of_sound ?_ (by simp) (by simp))).notifyMembers c _
    rw [negotiation]
    exact sound.negotiates (.inl offer) (.inr rfl) (by simp)
  · exact h

theorem disturb (h : s.Agreed none) (src : Option Port) (c : CellNo) (d : Disturbance) :
    (s.disturb src c d).Agreed none := by
  refine of_ite (fun _ => h) fun used => ?_
  have docked := (h.cells c (by simp)).sound.ended used
  have ended := (State.Around.of_agreed h).onCell (c := c)
    (f := fun x => { x with run := none, preparation := none }) rfl
  have moved := ended.disturbMove (by rw [State.onCell_eq, State.setCell_cell_same]; exact docked) d
  dsimp only
  split
  · exact moved.placeHold ..
  · exact moved

theorem memberReturn (h : s.Agreed none) (c : CellNo) (id : Id) : (s.memberReturn c id).Agreed none := by
  unfold State.memberReturn
  dsimp only
  split
  · rename_i lost
    exact of_ite (fun _ => h.enterOffer (by simp [lost, CellState.unformed])) fun _ => h
  · exact of_ite (fun _ => h) fun _ => h.notifyMember _ _
  · refine of_ite (fun _ => h) fun _ => ?_
    split
    · exact h.notifyMember _ _
    · exact h
  · exact h

theorem reportReturn (h : s.Agreed none) (c : Option CellNo) (id : Id) : (s.reportReturn c id).Agreed none := by
  cases c with
  | none => exact h
  | some c => exact h.memberReturn c id

theorem clearMembership (h : s.Agreed none) (m : Option Id) : (s.clearMembership m).Agreed none := by
  cases m with
  | none => exact h
  | some id => exact h.onEquip id _

theorem undock (h : s.Agreed none) (src : Option Port) (c : CellNo) : (s.undock src c).Agreed none := by
  have told := ((h.clearMembership (s.cell c).handler).clearMembership (s.cell c).tester).notifyMembers c
    fun id => .ndis id c
  have at_c : ((((s.clearMembership (s.cell c).handler).clearMembership (s.cell c).tester).notifyMembers c
      fun id => .ndis id c).cell c).bound = (s.cell c).bound := by
    rw [State.onlyPorts_notifyMembers]
    show (State.cell (State.clearMembership ..) c).bound = _
    rw [State.clearMembership_cell, State.clearMembership_cell]
  unfold State.undock
  dsimp only
  split
  · rename_i id bound
    exact (State.Around.of_agreed told).unbind (at_c.trans bound) Cell.sound_vacant rfl (.inr rfl) src
  · rename_i unbound
    exact told.moveCell (at_c.trans unbound).symm (.of_vacant rfl)

/-! ## Gates, the period minute and the ticks (chapter 10) -/

theorem evaluateGates (h : s.Agreed none) (src : Option Port) : (s.evaluateGates src).Agreed none := by
  have gated (clock : Clock) : ({ s with clock := clock } : State).Agreed none := h.of_same
  have served : ∀ was now, ({ s with clock := { s.clock with
      dispatchGate := gateAt s.tables.windows.toList .dispatch s.clock.minute,
      releaseGate := gateAt s.tables.windows.toList .release s.clock.minute } }.deliverDispatch src was
        now).Agreed none :=
    fun _ _ => of_ite (fun _ => (gated _).serveIdle src) fun _ => gated _
  exact of_ite (fun _ => ((served _ _).offerAll _).attentionTest) fun _ =>
    of_ite (fun _ => (served _ _).offerAll _) fun _ => served _ _

theorem periodChanged (h : s.Agreed none) (src : Option Port) : (s.periodChanged src).Agreed none :=
  evaluateGates (of_ite (fun _ => h.of_same) fun _ => h) src

theorem minute (h : s.Agreed none) : s.minute.Agreed none := by
  have advanced (clock : Clock) : ({ s with clock := clock } : State).recompute.Agreed none :=
    (h.of_same (t := { s with clock := clock })).recompute
  have gated {u : State} (k : u.Agreed none) :
      (if u.configState = .loading then u else u.evaluateGates none).Agreed none :=
    of_ite (fun _ => k) fun _ => k.evaluateGates none
  exact of_ite (fun _ => (gated (advanced _)).notify _ _) fun _ => gated (advanced _)

/-- No lot is in the table and every cell is VACANT. -/
theorem of_empty (lots : t.lots = []) (queue : t.queue = []) (holds : t.holds = []) (shipments : t.shipments = [])
    (cells : ∀ d, t.cell d = Cell.vacant) : t.Agreed none := by
  have no_lot (id : Id) : t.lot id = none := by simp [State.lot, lots]
  exact
    { linked :=
        { ids := by simp [lots]
          bound := by simp [no_lot]
          named := by simp [no_lot]
          names := by simp [cells, Cell.vacant]
          queue := by simp [queue]
          shipments := by simp [shipments] }
      holds := ⟨by simp [holds], by simp [holds], by simp [no_lot]⟩
      cells := fun d _ => by
        rw [cells]
        exact .of_vacant rfl
      ready := fun _ _ work => by cases work }

theorem floorReset : s.floorReset.Agreed none :=
  of_empty rfl rfl rfl rfl fun d => by simp [State.floorReset, State.clearRecords, State.cell]

theorem powerOn (cut : WriteCut) : (s.powerOn cut).Agreed none := of_empty rfl rfl rfl rfl State.reset_cell

theorem endLoad (h : s.Agreed none) (reply : StoreReply) : (s.endLoad reply).Agreed none := by
  have ports : (s.onPorts PortUnit.loadEnds).Agreed none := h.of_same
  exact periodChanged (of_ite (fun _ => ports.of_same) fun _ => ports.of_same) none

/-- Every cell takes a tick. -/
theorem of_ticks (h : s.Agreed none) (lots : t.lots = s.lots) (queue : t.queue = s.queue) (holds : t.holds = s.holds)
    (shipments : t.shipments = s.shipments) (cells : ∀ d, t.cell d = (s.cell d).tick) : t.Agreed none := by
  have lot (k : Id) : t.lot k = s.lot k := by rw [State.lot, lots, State.lot]
  have unheld : t.lotUnheld = s.lotUnheld := by funext k; rw [State.lotUnheld, lot, State.lotUnheld]
  exact
    { linked := h.linked.of_links lots (fun d => by rw [cells]; rfl) (fun w mem => ⟨w, queue ▸ mem, rfl⟩)
        fun r mem => ⟨r, shipments ▸ mem, rfl⟩
      holds := h.holds.of_counts holds fun k => by rw [lot]
      cells := fun d _ => by
        have fits := h.cells d (by simp)
        rw [cells, unheld]
        exact ⟨fits.sound.tick, fits.running, fits.paused⟩
      ready := fun _ _ work => by cases work }

theorem second (h : s.Agreed none) : s.second.Agreed none :=
  h.of_ticks (by simp only [State.second]) (by simp only [State.second]) (by simp only [State.second])
    (by simp only [State.second]) (State.second_cell s)

/-! ## The events of a tick -/

theorem endSoak (h : s.Agreed none) (c : CellNo) : (s.endSoak c).Agreed none := by
  refine of_ite (fun ended => ?_) fun _ => h
  have fits := h.cells c (by simp)
  obtain ⟨preparing, -⟩ := State.soakOver_iff.mp ended
  have soaked := h.onCell (c := c)
    (f := fun x => { x with preparation := x.preparation.map fun p => { p with thermal := .done } }) rfl ?_
  · exact (soaked.testPreparation none c).serve none c
  · refine .of_sound ?_ (by simp [preparing]) (by simp [preparing])
    exact { fits.sound with preparation := by simpa using fits.sound.preparation }

theorem takeDue (h : s.Agreed none) (d : Due) : (s.takeDue d).Agreed none := by
  cases d with
  | negotiation c =>
    refine of_ite (fun expired => ?_) fun _ => h
    obtain ⟨state, -⟩ := Cell.negotiationExpired_iff.mp expired
    exact h.enterFault (by rcases state with e | e <;> simp [e, CellState.unformed]) _
  | load c => exact of_ite (fun expired => h.loadFailed (Cell.loadExpired_iff.mp expired).1 none) fun _ => h
  | settle c => exact of_ite (fun expired => h.settleFailed (Cell.settleExpired_iff.mp expired).1 none) fun _ => h
  | close c => exact of_ite (fun _ => h.closeExpired none c) fun _ => h
  | soak c => exact h.endSoak c
  | stale i =>
    simp only [State.takeDue, State.goStale]
    split
    · refine of_ite (fun _ => ?_) fun _ => h
      split
      · exact (h.setEntry i _).disturb ..
      · exact h.setEntry i _
    · exact h
  | removal i =>
    simp only [State.takeDue, State.removeEntry]
    split
    · exact of_ite (fun _ => h.setEntry i _) fun _ => h
    · exact h
  | minute => exact h.minute
  | floorReset => exact floorReset

theorem withDue (h : s.Agreed none) (ds : List Due) : ({ s with due := ds } : State).Agreed none := h.of_same

theorem settle (h : s.Agreed none) : s.settle.Agreed none := foldl (fun _ d h => h.takeDue d) (h.withDue []) _

theorem takeListed (h : s.Agreed none) (d : Due) : (s.takeListed d).Agreed none :=
  of_ite (fun _ => (h.withDue _).takeDue d) fun _ => h

end State.Agreed
end Sys2Proof.Machine
end

section
/-! The owners of the lot and hold requests keep lots and cells in agreement (chapters 4 and 8): lots that enter, leave
and leave test, and lots whose holds are lifted. -/

namespace Sys2Proof.Machine

-- one theorem at a time: many at once, each with a thread of its own, can exceed the memory limit
set_option Elab.async false

/-- Of a list without repeated keys one item leaves with its key. -/
theorem length_filter_key {α γ : Type} [DecidableEq γ] {key : α → γ} {xs : List α} {k : γ}
    (once : (xs.map key).Nodup) (mem : k ∈ xs.map key) {q : α → Prop} [DecidablePred q]
    (inside : ∀ x, key x = k → q x) :
    ((xs.filter fun x => key x ≠ k).filter fun x => q x).length = (xs.filter fun x => q x).length - 1 := by
  have one : (xs.filter fun x => key x = k).length = 1 := by
    have := List.count_eq_one_of_mem once mem
    rw [List.count_eq_countP, List.countP_map, List.countP_eq_length_filter] at this
    rw [← this]
    congr 1
  have split := List.length_eq_length_filter_add (l := xs.filter fun x => q x) fun x => decide (key x = k)
  simp only [List.filter_filter] at split ⊢
  have same : (xs.filter fun x => decide (key x = k) && decide (q x)) = xs.filter fun x => decide (key x = k) := by
    refine List.filter_congr fun x _ => ?_
    by_cases at_k : key x = k
    · simp [at_k, inside x at_k]
    · simp [at_k]
  have rest : (xs.filter fun x => !decide (key x = k) && decide (q x))
      = xs.filter fun x => decide (q x) && decide (key x ≠ k) :=
    List.filter_congr fun x _ => by simp [Bool.and_comm]
  rw [same, one, rest] at split
  omega

/-! ## A lot that enters, a lot that leaves -/

namespace State.Agreed

variable {s t : State} {c : CellNo} {id : Id}

/-- A lot with a new id joins the table. -/
theorem addLot (h : s.Agreed none) {l : Lot} (fresh : s.lot l.id = none) (free : l.cell = none)
    (state : l.state ≠ .bound) (unheld : l.holdCount = 0) (q : Stamp) : ({ s with lots := s.lots ++ [l], sequence := q } : State).Agreed none := by
  have lot (k : Id) : ({ s with lots := s.lots ++ [l], sequence := q } : State).lot k
      = (s.lot k).or (if l.id = k then some l else none) := by
    simp [State.lot, List.find?_append, List.find?_cons]
    split <;> simp_all
  have known {k : Id} {m : Lot} (at_k : s.lot k = some m) :
      ({ s with lots := s.lots ++ [l], sequence := q } : State).lot k = some m := by rw [lot, at_k]; rfl
  have one {k : Id} {m : Lot} (at_k : ({ s with lots := s.lots ++ [l], sequence := q } : State).lot k = some m) :
      s.lot k = some m ∨ (k = l.id ∧ m = l) := by
    rw [lot] at at_k
    cases old : s.lot k with
    | some m' =>
      rw [old] at at_k
      exact .inl at_k
    | none =>
      rw [old, Option.none_or] at at_k
      split at at_k
      · exact .inr ⟨‹l.id = k›.symm, (Option.some.inj at_k).symm⟩
      · cases at_k
  refine ⟨⟨?_, ?_, ?_, ?_, ?_, ?_⟩, ⟨h.holds.keys, ?_, ?_⟩, fun d _ => ?_, fun _ _ work => by cases work⟩
  · have ids := h.linked.ids
    rw [List.map_append, List.nodup_append]
    refine ⟨ids, by simp, ?_⟩
    simp only [List.map_cons, List.map_nil, List.mem_map, List.mem_singleton]
    rintro _ ⟨m, mem, rfl⟩ _ rfl same
    have := State.lot_of_mem ids mem
    rw [same, fresh] at this
    cases this
  · rintro k m at_k
    obtain old | ⟨rfl, rfl⟩ := one at_k
    · exact h.linked.bound k m old
    · simp [free, state]
  · rintro k m d at_k named
    obtain old | ⟨rfl, rfl⟩ := one at_k
    · exact h.linked.named k m d old named
    · simp [free] at named
  · intro d k bound
    obtain ⟨m, old, named⟩ := h.linked.names d k bound
    exact ⟨m, known old, named⟩
  · intro w mem
    obtain ⟨m, old, waits⟩ := h.linked.queue w mem
    exact ⟨m, known old, waits⟩
  · intro r mem
    obtain ⟨m, old, past⟩ := h.linked.shipments r mem
    exact ⟨m, known old, past⟩
  · intro r mem absent
    obtain ⟨m, old⟩ := Option.ne_none_iff_exists'.mp (h.holds.known r mem)
    rw [known old] at absent
    cases absent
  · intro k m at_k
    obtain old | ⟨rfl, rfl⟩ := one at_k
    · exact h.holds.count k m old
    · rw [unheld, eq_comm, List.length_eq_zero_iff, List.filter_eq_nil_iff]
      intro r mem same
      have same : r.lot = m.id := by simpa using same
      exact h.holds.known r mem (same ▸ fresh)
  · refine (h.cells d (by simp)).of_unheld fun k bound => ?_
    obtain ⟨m, old, -⟩ := h.linked.names d k bound
    rw [State.lotUnheld, known old, State.lotUnheld, old]

/-- A lot that no cell names leaves the table with its records. -/
theorem freeLot (h : s.Agreed none) {l : Lot} (known : s.lot l.id = some l) (free : l.state ≠ .bound)
    (unshipped : ∀ r ∈ s.shipments, r.lot ≠ l.id) (cause : Cause) : (s.freeLot l cause).Agreed none := by
  let t : State := { (s.leaveQueue l.id).removeHoldsOf l.id with lots := s.lots.filter fun x => x.id ≠ l.id }
  have lot (k : Id) (other : k ≠ l.id) : t.lot k = s.lot k := by
    show (s.lots.filter _).find? _ = s.lots.find? _
    rw [List.find?_filter]
    congr 1
    funext x
    by_cases at_k : x.id = k <;> simp [at_k, other]
  have gone : t.lot l.id = none := by
    show (s.lots.filter _).find? _ = none
    simp
  have old {k : Id} {m : Lot} (at_k : t.lot k = some m) : k ≠ l.id ∧ s.lot k = some m := by
    by_cases same : k = l.id
    · rw [same, gone] at at_k
      cases at_k
    · exact ⟨same, lot k same ▸ at_k⟩
  have named (d : CellNo) (k : Id) (bound : (s.cell d).bound = some k) : k ≠ l.id := by
    rintro rfl
    exact h.linked.unnamed known free d bound
  have agreed : t.Agreed none := by
    refine ⟨⟨?_, ?_, ?_, ?_, ?_, ?_⟩, ⟨?_, ?_, ?_⟩, fun d _ => ?_, fun _ _ work => by cases work⟩
    · exact h.linked.ids.sublist (List.filter_sublist.map _)
    · exact fun k m at_k => h.linked.bound k m (old at_k).2
    · exact fun k m d at_k => h.linked.named k m d (old at_k).2
    · intro d k bound
      obtain ⟨m, known', named'⟩ := h.linked.names d k bound
      exact ⟨m, (lot k (named d k bound)).trans known', named'⟩
    · intro w mem
      obtain ⟨mem, other⟩ := List.mem_filter.mp mem
      obtain ⟨m, known', waits⟩ := h.linked.queue w mem
      exact ⟨m, (lot _ (by simpa using other)).trans known', waits⟩
    · intro r mem
      obtain ⟨m, known', past⟩ := h.linked.shipments r mem
      exact ⟨m, (lot _ (unshipped r mem)).trans known', past⟩
    · exact h.holds.keys.sublist (List.filter_sublist.map _)
    · intro r mem
      obtain ⟨mem, other⟩ := List.mem_filter.mp mem
      rw [lot _ (by simpa using other)]
      exact h.holds.known r mem
    · intro k m at_k
      obtain ⟨other, known'⟩ := old at_k
      rw [h.holds.count k m known']
      show _ = ((s.holds.filter _).filter _).length
      rw [List.filter_filter]
      congr 1
      refine List.filter_congr fun r _ => ?_
      by_cases at_r : r.lot = k <;> simp [at_r, other]
    · refine (h.cells d (by simp)).of_unheld fun k bound => ?_
      rw [State.lotUnheld, lot k (named d k bound), State.lotUnheld]
  exact agreed.notify ..

/-- A lot that is not BOUND leaves test, and the queue (R67). -/
theorem leaveTest (h : s.Agreed none) {l : Lot} (known : s.lot id = some l) (free : l.state ≠ .bound) :
    ((s.onLot id fun l => { l with state := .tested }).leaveQueue id).Agreed none := by
  let f : Lot → Lot := fun l => { l with state := .tested }
  have lot (k : Id) : ((s.onLot id f).leaveQueue id).lot k = if k = id then some (f l) else s.lot k := by
    show (s.onLot id f).lot k = _
    rw [State.onLot_lot (by exact fun _ => rfl), known]
    rfl
  have unnamed : l.cell = none := by simpa using (h.linked.bound id l known).not.mp free
  have linked : ((s.onLot id f).leaveQueue id).Linked := by
    refine h.linked.relot (id := id) (m := f l) (State.onLot_ids fun _ => rfl) lot (by simp [f, unnamed]) (fun d => ?_)
      (fun _ _ _ => .rfl) (fun w mem => ?_) fun r mem => ⟨mem, fun _ => by simp [f, Lot.Past]⟩
    · exact iff_of_false (h.linked.unnamed known free d) (by simp [f, unnamed])
    · obtain ⟨mem, other⟩ := List.mem_filter.mp mem
      exact ⟨mem, fun same => absurd same (by simpa using other)⟩
  refine ⟨linked, (h.holds.onLot (f := f) (fun _ => rfl) fun _ => rfl).of_counts rfl fun _ => rfl, fun d _ => ?_,
    fun _ _ work => by cases work⟩
  exact (h.cells d (by simp)).of_unheld fun k _ =>
    congrFun (State.onLot_keepsUnheld (f := f) (fun _ => rfl) fun _ => rfl) k

end State.Agreed

/-! ## Holds lifted from a lot (R142, R146) -/

/-- In `t` some holds of a lot that is held in `s` have been lifted. -/
structure State.Lifted (s t : State) (id : Id) : Prop where
  linked : t.Linked
  holds  : t.HoldsCounted
  cells  : ∀ d, t.cell d = s.cell d
  others : ∀ k, k ≠ id → t.lotUnheld k = s.lotUnheld k
  held   : s.lotUnheld id = false

namespace State.Lifted

variable {s t : State} {id : Id}

theorem of_onlyPorts {u : State} (h : s.Lifted t id) (ports : t.OnlyPorts u) : s.Lifted u id := by
  rw [ports]
  exact ⟨h.linked.of_links rfl (fun _ => rfl) (fun w mem => ⟨w, mem, rfl⟩) fun r mem => ⟨r, mem, rfl⟩,
    h.holds.of_counts rfl fun _ => rfl, h.cells, h.others, h.held⟩

theorem nlot (h : s.Lifted t id) (k : Id) (cause : Cause) (hold : Option (HoldKind × Nat)) :
    s.Lifted (t.nlot k cause hold) id := h.of_onlyPorts (t.onlyPorts_nlot k cause hold)

/-- A change of the lot that leaves its links and holds. -/
theorem onLot (h : s.Lifted t id) {l : Lot} (known : t.lot id = some l) {f : Lot → Lot} (stays : l.Stays (f l))
    (keep : ∀ l, (f l).id = l.id := by exact fun _ => rfl) : s.Lifted (t.onLot id f) id where
  linked := h.linked.onLot known stays.toLinks keep
  holds := h.holds.of_counts rfl fun k => by
    rw [State.onLot_lot keep]
    split
    · rename_i same
      rw [same, known, Option.map_some, Option.map_some, Option.map_some, stays.holdCount]
    · rfl
  cells := h.cells
  others k other := by
    rw [State.onLot_lotUnheld known keep, if_neg other]
    exact h.others k other
  held := h.held

/-- Nothing is asked of the lot's holds where it is still held, or no cell names it. -/
theorem agreed (h : s.Lifted t id) (agreed : s.Agreed none)
    (quiet : t.lotUnheld id = false ∨ ∀ d, (s.cell d).bound ≠ some id) : t.Agreed none where
  linked := h.linked
  holds := h.holds
  cells d _ := by
    have fits := agreed.cells d (by simp)
    rw [h.cells]
    refine fits.of_unheld fun k bound => ?_
    by_cases same : k = id
    · subst same
      obtain still | unnamed := quiet
      · rw [still, h.held]
      · exact absurd bound (unnamed d)
    · exact h.others k same
  ready := fun _ _ work => by cases work

/-- The lot goes on from where it was stopped once the last hold is lifted. -/
theorem goesOn (h : s.Lifted t id) (agreed : s.Agreed none) (src : Option Port) :
    (if t.lotUnheld id = true then t.becomeUnheld src id else t).Agreed none :=
  .of_ite (fun unheld => agreed.becomeUnheld h.linked h.holds h.cells h.others unheld src)
    fun held => h.agreed agreed (.inl (by simpa using held))

end State.Lifted

namespace State.Agreed

variable {s t : State} {c : CellNo} {id : Id}

/-- A record is removed. -/
theorem removeHold (h : s.Agreed none) {kind : HoldKind} {a : Nat} (has : s.hasHold id kind a = true) :
    s.Lifted (s.removeHold id kind a) id := by
  let f : Lot → Lot := fun l => { l with holdCount := l.holdCount - 1 }
  let u : State := { s with holds := s.holds.filter fun r => !r.is id kind a }
  have linked : u.Linked := h.linked.of_links rfl (fun _ => rfl) (fun w mem => ⟨w, mem, rfl⟩) fun r mem => ⟨r, mem, rfl⟩
  have is_iff (r : HoldRecord) : r.is id kind a = decide (r.key = (id, kind, a)) := by
    simp [HoldRecord.is, HoldRecord.key, Bool.and_assoc]
  have there : (id, kind, a) ∈ s.holds.map HoldRecord.key := by
    obtain ⟨r, mem, is⟩ := List.any_eq_true.mp has
    rw [is_iff] at is
    exact List.mem_map.mpr ⟨r, mem, of_decide_eq_true is⟩
  have others (k : Id) (other : k ≠ id) :
      ((s.holds.filter fun r => !r.is id kind a).filter fun r => r.lot = k) = s.holds.filter fun r => r.lot = k := by
    rw [List.filter_filter]
    refine List.filter_congr fun r _ => ?_
    by_cases at_k : r.lot = k
    · subst at_k
      simp [HoldRecord.is, other]
    · simp [at_k]
  have one : ((s.holds.filter fun r => !r.is id kind a).filter fun r => r.lot = id).length
      = (s.holds.filter fun r => r.lot = id).length - 1 := by
    rw [← length_filter_key h.holds.keys there (q := fun r => r.lot = id)
      fun r key => congrArg Prod.fst key]
    congr 2
    exact List.filter_congr fun r _ => by simp [is_iff]
  obtain ⟨l, known⟩ : ∃ l, s.lot id = some l := by
    obtain ⟨r, mem, key⟩ := List.mem_map.mp there
    have : r.lot = id := congrArg Prod.fst key
    exact Option.ne_none_iff_exists'.mp (this ▸ h.holds.known r mem)
  have lot (k : Id) : (u.onLot id f).lot k = if k = id then some (f l) else s.lot k := by
    rw [State.onLot_lot (by exact fun _ => rfl)]
    show (if k = id then (s.lot id).map f else s.lot k) = _
    rw [known]
    rfl
  refine ⟨linked.onLot (f := f) (l := l) known ⟨rfl, rfl, .inl rfl⟩ fun _ => rfl,
    ⟨?_, fun r mem => ?_, fun k m at_k => ?_⟩, fun _ => rfl, fun k other => ?_, h.holds.held has⟩
  · exact h.holds.keys.sublist (List.filter_sublist.map _)
  · have known' := h.holds.known r (List.mem_filter.mp mem).1
    show (u.onLot id f).lot r.lot ≠ none
    rw [lot]
    split
    · simp
    · exact known'
  · have at_k : (u.onLot id f).lot k = some m := at_k
    show m.holdCount = ((s.holds.filter fun r => !r.is id kind a).filter fun r => r.lot = k).length
    rw [lot] at at_k
    split at at_k
    · rename_i same
      obtain rfl := Option.some.inj at_k
      rw [same, one, ← h.holds.count id l known]
    · rename_i other
      rw [others k other, h.holds.count k m at_k]
  · show (u.onLot id f).lotUnheld k = _
    rw [State.lotUnheld, lot, if_neg other]
    rfl

/-- An overflow flag is cleared. -/
theorem clearOverflow (h : s.Agreed none) {l : Lot} (known : s.lot id = some l) (overflow : l.overflow = true) :
    s.Lifted (s.onLot id fun l => { l with overflow := false }) id where
  linked := h.linked.onLot (f := fun l => { l with overflow := false }) known ⟨rfl, rfl, .inl rfl⟩ fun _ => rfl
  holds := h.holds.onLot (f := fun l => { l with overflow := false }) (fun _ => rfl) fun _ => rfl
  cells _ := rfl
  others k other := by
    rw [State.onLot_lotUnheld known (by exact fun _ => rfl), if_neg other]
  held := by simp [State.lotUnheld_eq known, Lot.unheld, overflow]

end State.Agreed
end Sys2Proof.Machine
end

section
/-! The owners of the requests keep lots and cells in agreement. -/

namespace Sys2Proof.Machine

-- one theorem at a time: many at once, each with a thread of its own, can exceed the memory limit
set_option Elab.async false

open State (Agreed Around Lifted)

/-- The owner keeps lots and cells in agreement on every request that the reader takes. -/
def KeepsAgreed {α : Type} (read : List Byte → Checked α) (owner : Owner α) : Prop :=
  ∀ f a s, read f.payload = .ok a → s.Agreed none → ((owner f a s).1).Agreed none

theorem State.Agreed.of_outcomes {p : Prop} [Decidable p] {x y : State × Reply} (h : p → x.1.Agreed none)
    (k : ¬p → y.1.Agreed none) : ((if p then x else y).1).Agreed none := by
  split
  · exact h ‹_›
  · exact k ‹_›

/-! ## Lots (chapter 4) -/

/-- A lot at its entry, settled: WAITING or TESTED, with its id, no cell and no hold. -/
theorem LentFields.settled (a : LentFields) (sequence stamp : Stamp) (restored : Bool) (n : Nat) :
    let l := (a.entered sequence stamp).settledEntry restored n
    l.id = a.lot ∧ l.cell = none ∧ l.holdCount = 0 ∧ (l.state = .waiting ∨ l.state = .tested) := by
  obtain ⟨k, final, now, next, e⟩ := (a.entered sequence stamp).completePass_cases n
  simp only [Lot.settledEntry, e]
  split
  · split <;> simp [LentFields.entered]
  · simp [LentFields.entered]

theorem State.Agreed.enterLot {s : State} (h : s.Agreed none) {l : Lot} (fresh : s.lot l.id = none)
    (free : l.cell = none) (unheld : l.holdCount = 0) (state : l.state = .waiting ∨ l.state = .tested) (src : Option Port) :
    (s.enterLot src l).Agreed none := by
  have added := h.addLot fresh free (by rcases state with e | e <;> simp [e]) unheld (nextSequence s.sequence)
  have entered := added.nlot l.id .entered
  refine .of_ite (fun _ => (entered.checkRatios src l.id).decideSample l.id) fun untested => ?_
  refine entered.joinAndOffer src fun m known => ?_
  have there : ({ s with lots := s.lots ++ [l], sequence := nextSequence s.sequence } : State).lot l.id = some l := by
    rw [State.lot] at fresh ⊢
    rw [List.find?_append, fresh]
    simp
  rw [State.nlot_lot, there, Option.some.injEq] at known
  exact known ▸ state.resolve_right untested

theorem lentConfigured_agreed {read : List Byte → Checked LentFields} : KeepsAgreed read lentConfigured := by
  intro _ a s _ h
  refine .of_outcomes (fun _ => h) fun _ => .of_outcomes (fun _ => h) fun fresh => .of_outcomes (fun _ => h) fun _ =>
    .of_outcomes (fun _ => h) fun _ => ?_
  obtain ⟨id, free, unheld, state⟩ := a.settled s.sequence s.clock.stamp a.restore.isSome
    (s.tables.products[a.product]).maxRetests
  exact h.enterLot (by rw [id]; simpa using fresh) free unheld state _

theorem afterReattempt_agreed {α : Type} {read : List Byte → Checked α} {owner : Owner α}
    (keeps : KeepsAgreed read owner) : KeepsAgreed read (afterReattempt owner) :=
  fun f a s reads h => .of_outcomes (fun _ => h.of_same) fun _ => keeps f a s reads h

theorem lpriOwner_agreed {read : List Byte → Checked (Id × Nat)} : KeepsAgreed read lpriOwner := by
  intro _ a s _ h
  unfold lpriOwner
  split
  · exact h
  · have changed := h.onLot a.1 (fun l => { l with basePriority := a.2 }) fun _ _ => .of_same
    exact .of_ite (fun _ => (changed.recomputeLot a.1).offer _ _) fun _ => changed

theorem lshtOwner_agreed {read : List Byte → Checked Id} : KeepsAgreed read lshtOwner := by
  intro _ id s _ h
  unfold lshtOwner
  split
  · exact h
  · rename_i l known
    refine .of_outcomes (fun _ => h) fun free => ?_
    have stays (m : Lot) : m.Stays (m.declareShort.completePass (s.product l).maxRetests) := by
      obtain ⟨k, final, now, next, e⟩ := m.declareShort.completePass_cases (s.product l).maxRetests
      rw [e]
      exact .of_same
    have short := h.onLot id (fun m => m.declareShort.completePass (s.product l).maxRetests) (fun m _ => stays m)
      fun m => (stays m).id
    dsimp only
    split
    · exact short
    · have known' := s.onLot_lot_same (fun m => m.declareShort.completePass (s.product l).maxRetests) known
        fun m => (stays m).id
      have left := short.leaveTest known' fun bound => free (.inl ?_)
      · exact ((left.nlot id .tested).checkRatios _ id).decideSample id
      · obtain same | ⟨past, past'⟩ := (stays l).state
        · rw [← same, bound]
        · exact absurd bound past'.2

/-! ## Holds (chapter 8) -/

theorem holdOwner_agreed {read : List Byte → Checked (Id × Nat)} (p : Port) : KeepsAgreed read (holdOwner p) := by
  intro _ a s _ h
  unfold holdOwner
  dsimp only
  split
  · exact h
  · rename_i l known
    refine .of_outcomes (fun _ => h) fun fresh => .of_outcomes (fun _ => h) fun _ => ?_
    exact h.appendHold (r := ⟨a.1, (holdKey p a.2).1, (holdKey p a.2).2, 0, some p, s.clock.stamp, a.2⟩) known
      (by simpa using fresh)

theorem checked_bind_eq_ok {α β : Type} {x : Checked α} {f : α → Checked β} {b : β} (h : (x >>= f) = .ok b) :
    ∃ a, x = .ok a ∧ f a = .ok b := by
  cases x with
  | error _ => cases h
  | ok a => exact ⟨a, rfl, h⟩

theorem Cursor.pick_ok {α : Type} {c c' : Cursor} {read : Byte → Option α} {a : α} (h : c.pick read = .ok (a, c')) :
    ∃ b, read b = some a := by
  obtain ⟨⟨v, d⟩, -, h⟩ := checked_bind_eq_ok h
  dsimp only at h
  split at h
  · rename_i a' picks
    injection h with e
    injection e with e
    exact ⟨_, e ▸ picks⟩
  · cases h

/-- Only the clearing of a QA hold disposes of its lot (R147). -/
theorem readHclr_disposition {payload : List Byte} {a : HclrFields} (h : readHclr payload = .ok a) :
    a.disposition = .none ∨ a.kind = .qa := by
  obtain ⟨⟨lot, c⟩, -, h⟩ := checked_bind_eq_ok h
  obtain ⟨⟨kind, c⟩, -, h⟩ := checked_bind_eq_ok h
  obtain ⟨⟨n, c⟩, -, h⟩ := checked_bind_eq_ok h
  obtain ⟨⟨d, c⟩, picks, h⟩ := checked_bind_eq_ok h
  obtain ⟨b, picks⟩ := Cursor.pick_ok picks
  have allowed := (Option.filter_eq_some_iff.mp picks).2
  dsimp only [Cursor.finish] at h
  split at h
  · injection h with e
    subst e
    simpa using allowed
  · cases h

theorem hclrOwner_agreed (p : Port) : KeepsAgreed readHclr (hclrOwner p) := by
  intro _ a s reads h
  unfold hclrOwner
  split
  · exact h
  · rename_i l known
    refine .of_outcomes (fun _ => h) fun _ => .of_outcomes (fun _ => h) fun has =>
      .of_outcomes (fun _ => h) fun fits => ?_
    have removed : (s.removeHold a.lot a.kind a.arg).lot a.lot = some { l with holdCount := l.holdCount - 1 } :=
      State.onLot_lot_same { s with holds := s.holds.filter fun r => !r.is a.lot a.kind a.arg }
        (fun l => { l with holdCount := l.holdCount - 1 }) known fun _ => rfl
    have lifted := (h.removeHold (by simpa using has)).nlot a.lot .holdCleared (some (a.kind, a.arg))
    cases acts : a.disposition with
    | none => exact lifted.goesOn h _
    | accept | resample =>
      have qa : a.kind = .qa := (readHclr_disposition reads).resolve_left (by simp [acts])
      have sampling : l.state = .sampling := by
        by_contra other
        exact fits ⟨qa, by simp [dispositionFits, other, acts]⟩
      refine Lifted.goesOn (Lifted.nlot (lifted.onLot (State.nlot_lot .. ▸ removed) ?_) ..) h _
      exact .of_past (by simp [Lot.Past, sampling]) (by simp [Lot.Past])

theorem hovcOwner_agreed {read : List Byte → Checked Id} : KeepsAgreed read hovcOwner := by
  intro _ id s _ h
  unfold hovcOwner
  split
  · exact h
  · rename_i l known
    refine .of_outcomes (fun _ => h) fun overflow => ?_
    exact ((h.clearOverflow known (by simpa using overflow)).nlot id .overflowCleared none).goesOn h _

end Sys2Proof.Machine
end

section
/-! The owners of the cell, equipment, run, release and configuration requests keep lots and cells in agreement
(chapters 2, 3, 5 to 7 and 9 to 11). -/

namespace Sys2Proof.Machine

-- one theorem at a time: many at once, each with a thread of its own, can exceed the memory limit
set_option Elab.async false

open State (Agreed Around)

/-! ## The floor host's cell requests (chapters 3 and 5) -/

/-- A cell that is not VACANT or negotiating and changes in the rest of its record still suits its state. -/
theorem Cell.Fits.of_rest {x y : Cell} {u : Id → Bool} (h : x.Fits u) (state : y.state = x.state := by rfl)
    (handler : y.handler = x.handler := by rfl) (tester : y.tester = x.tester := by rfl)
    (negotiation : y.negotiation = x.negotiation := by rfl) (preparation : y.preparation = x.preparation := by rfl)
    (run : y.run = x.run := by rfl) (fault : y.fault = x.fault := by rfl) (bound : y.bound = x.bound := by rfl)
    (common : y.common = x.common := by rfl)
    (sites : subset y.active ((x.common.map Capability.sites).getD 0) = true) : y.Fits u where
  sound :=
    { handler := by rw [handler, state]; exact h.sound.handler
      tester := by rw [tester, state]; exact h.sound.tester
      negotiation := by rw [negotiation, state]; exact h.sound.negotiation
      proposed := by rw [negotiation, state]; exact h.sound.proposed
      preparation := by rw [preparation, state]; exact h.sound.preparation
      run := by rw [run, state]; exact h.sound.run
      fits := by rw [run, state]; exact h.sound.fits
      fault := by rw [fault, state]; exact h.sound.fault
      working := by rw [bound, state]; exact h.sound.working
      free := by rw [bound, state]; exact h.sound.free
      formed := by rw [common, state]; exact h.sound.formed
      sites := by rw [common]; exact sites }
  running := by rw [bound, state]; exact h.running
  paused := by rw [bound, state]; exact h.paused

/-- The one bit that adding or dropping a site concerns. -/
theorem SiteSet.bit_eq (site y : Fin 8) : (BitVec.ofNat 8 (2 ^ site.val)).getLsbD y.val = decide (y = site) := by
  revert site y
  decide

theorem subset_iff {n : Nat} {v w : BitVec n} : subset v w = true ↔ v &&& w = v := decide_eq_true_iff

theorem SiteSet.add_subset {v w : SiteSet} {site : Fin 8} (within : subset v w = true)
    (has : SiteSet.has w site = true) : subset (SiteSet.add v site) w = true := by
  rw [subset_iff] at within ⊢
  refine BitVec.eq_of_getLsbD_eq fun i small => ?_
  have at_i := congrArg (fun u => u.getLsbD i) within
  have bit := SiteSet.bit_eq site ⟨i, small⟩
  simp only [BitVec.getLsbD_and, SiteSet.add, BitVec.getLsbD_or] at at_i bit ⊢
  rw [bit]
  by_cases same : (⟨i, small⟩ : Fin 8) = site
  · subst same
    simp only [SiteSet.has] at has
    simp [has]
  · simpa [same] using at_i

theorem SiteSet.drop_subset {v w : SiteSet} (site : Fin 8) (within : subset v w = true) :
    subset (SiteSet.drop v site) w = true := by
  rw [subset_iff] at within ⊢
  rw [SiteSet.drop, BitVec.and_assoc, BitVec.and_comm _ w, ← BitVec.and_assoc, within]

theorem State.Agreed.dock {s : State} (h : s.Agreed none) {c : CellNo} (vacant : (s.cell c).state = .vacant)
    (i j : Id) : (s.dock c i j).Agreed none := by
  have members := (h.onEquip i fun e => { e with membership := some c }).onEquip j
    fun e => { e with membership := some c }
  have sound := (h.cells c (by simp)).sound
  unfold State.dock
  refine ((Around.of_agreed (c := c) members).onCell
    (f := fun x => { x with handler := some i, tester := some j, mode := .maintenance }) rfl).enterOffer ?_ _ _
  rw [State.onCell_eq, State.setCell_cell_same]
  simp only [State.onEquip_cell]
  exact ⟨by simp, by simp, sound.preparation_none (by simp [vacant]), sound.run_none (by simp [vacant]), sound.sites⟩

theorem cdckConfigured_agreed {read : List Byte → Checked (CellNo × Id × Id)} : KeepsAgreed read cdckConfigured := by
  intro _ a s _ h
  refine .of_outcomes (fun _ => h) fun _ => .of_outcomes (fun _ => h) fun vacant => ?_
  split
  · exact h
  · exact h.dock (by simpa using vacant) _ _

theorem cundOwner_agreed {read : List Byte → Checked CellNo} : KeepsAgreed read cundOwner := by
  intro _ c s _ h
  refine .of_outcomes (fun _ => h) fun _ => ?_
  split
  · exact h.undock _ c
  · exact h.undock _ c
  · exact h.undock _ c
  · exact h.undock _ c
  · exact h

theorem crdkOwner_agreed {read : List Byte → Checked CellNo} : KeepsAgreed read crdkOwner := by
  intro _ c s _ h
  refine .of_outcomes (fun _ => h) fun _ => ?_
  split
  · rename_i fault
    exact h.enterOffer (by simp [fault, CellState.unformed])
  · rename_i lost
    exact h.enterOffer (by simp [lost, CellState.unformed])
  · exact h

theorem cmodOwner_agreed {read : List Byte → Checked (CellNo × Mode)} : KeepsAgreed read cmodOwner := by
  intro _ a s _ h
  refine .of_outcomes (fun _ => h) fun _ => .of_outcomes (fun _ => h) fun _ => .of_outcomes (fun _ => h) fun _ => ?_
  have fits := h.cells a.1 (by simp)
  exact (h.moveCell (f := fun x => { x with mode := a.2 }) rfl (fits.of_rest (sites := fits.sound.sites))).serve _ _

theorem csenOwner_agreed {read : List Byte → Checked (CellNo × Fin 8)} : KeepsAgreed read csenOwner := by
  intro _ a s _ h
  refine .of_outcomes (fun _ => h) fun _ => .of_outcomes (fun _ => h) fun _ =>
    .of_outcomes (fun _ => h) fun common => ?_
  have fits := h.cells a.1 (by simp)
  refine (h.onCell (f := fun x => { x with active := SiteSet.add x.active a.2, failed := none }) rfl
    (fits.of_rest (sites := SiteSet.add_subset fits.sound.sites ?_))).serve _ _
  cases has : (s.cell a.1).common <;> simp_all

theorem cunbOwner_agreed {read : List Byte → Checked CellNo} : KeepsAgreed read cunbOwner := by
  intro _ c s _ h
  have sound := (h.cells c (by simp)).sound
  have unbind {id : Id} (bound : (s.cell c).bound = some id) (state : (s.cell c).state = .preparing ∨
      (s.cell c).state = .paused) : (((s.onCell c fun x => { x with preparation := none }).unbind (some hostPort) c id
        fun x => { x with state := .idle })).Agreed none := by
    refine ((Around.of_agreed h).onCell rfl).unbind_idle ?_ ?_ _ <;> rw [State.onCell_eq, State.setCell_cell_same]
    · exact bound
    · refine ⟨(sound.base ?_).of_same, rfl, sound.run_none ?_⟩ <;>
        rcases state with e | e <;> simp [e, CellState.formed]
  refine .of_outcomes (fun _ => h) fun _ => ?_
  split
  · exact unbind ‹_› (.inl ‹_›)
  · exact unbind ‹_› (.inr ‹_›)
  · exact h

/-! ## Equipment (chapters 2, 3 and 6) -/

theorem eannOwner_agreed {read : List Byte → Checked Ability} (p : Port) : KeepsAgreed read (eannOwner p) := by
  intro f a s _ h
  unfold eannOwner
  split
  · refine .of_outcomes (fun _ => h) fun _ => ?_
    dsimp only
    split
    · exact (h.setEntry _ _).disturb ..
    · exact h.setEntry _ _
  · unfold State.learn
    split
    · exact .of_outcomes (fun _ => h.setEntry _ _) fun _ => h
    · exact h

theorem Negotiation.report_proposed (n : Negotiation) (handler : Bool) : (n.report handler).proposed = n.proposed := by
  cases handler <;> rfl

theorem Negotiation.accept_proposed (n : Negotiation) (handler : Bool) : (n.accept handler).proposed = n.proposed := by
  cases handler <;> rfl

theorem eablOwner_agreed {read : List Byte → Checked (CellNo × Ability)} : KeepsAgreed read eablOwner := by
  intro f a s _ h
  have changed : (s.setAbility f.source a.2).Agreed none := h.onEquip ..
  have same : (s.setAbility f.source a.2).cell a.1 = s.cell a.1 := State.onEquip_cell ..
  refine .of_outcomes (fun _ => h) fun _ => .of_outcomes (fun _ => h) fun _ => ?_
  split
  · rename_i n offer negotiation
    have sound := (h.cells a.1 (by simp)).sound
    have proposed := sound.proposed n negotiation
    rw [offer, ← n.report_proposed ((s.cell a.1).handler = some f.source)] at proposed
    have kept := changed.onCell (c := a.1)
      (f := fun x => { x with negotiation := some (n.report ((s.cell a.1).handler = some f.source)) }) rfl (by
        rw [same]
        refine .of_sound ?_ (by simp [offer]) (by simp [offer])
        have := sound.negotiates (.inl offer) (.inl rfl) proposed
        rwa [← offer] at this)
    refine .of_ite (fun _ => kept.reported ?_) fun _ => kept
    rw [State.onCell_eq, State.setCell_cell_same, same]
    exact offer
  · rename_i confirm _
    exact changed.enterOffer (by rw [same]; simp [confirm, CellState.unformed]) _ _
  · exact h

theorem ecnfOwner_agreed {read : List Byte → Checked (CellNo × Capability)} (p : Port) :
    KeepsAgreed read (ecnfOwner p) := by
  intro f a s _ h
  refine .of_outcomes (fun _ => h) fun _ => ?_
  split
  · rename_i n confirm negotiation
    have unformed : (s.cell a.1).state.unformed := by simp [confirm, CellState.unformed]
    refine .of_outcomes (fun _ => h.enterFault unformed _) fun _ => ?_
    have sound := (h.cells a.1 (by simp)).sound
    have docked := sound.docked unformed
    have proposed := sound.proposed n negotiation
    rw [confirm, ← n.accept_proposed ((s.cell a.1).handler = some f.source)] at proposed
    have kept := h.onCell (c := a.1)
      (f := fun x => { x with negotiation := some (n.accept ((s.cell a.1).handler = some f.source)) }) rfl (by
        refine .of_sound ?_ (by simp [confirm]) (by simp [confirm])
        have := sound.negotiates (.inr confirm) (.inr rfl) proposed
        rwa [← confirm] at this)
    refine .of_ite (fun _ => (Around.of_agreed kept).formed ?_ ?_ _ _) fun _ => kept
    all_goals rw [State.onCell_eq, State.setCell_cell_same]
    · exact ⟨docked.handler, docked.tester, docked.preparation, docked.run, docked.sites⟩
    · have none_of : ¬(s.cell a.1).fault.isSome = true := by
        rw [sound.fault, confirm]
        simp
      simpa using none_of
  · exact h

/-- A part of a preparation record that goes on changes no part's presence. -/
theorem Cell.Fits.prepares {x : Cell} {u : Id → Bool} (h : x.Fits u) (preparing : x.state = .preparing)
    (q : Preparation) : ({ x with preparation := some q } : Cell).Fits u :=
  .of_sound { h.sound with preparation := by simp [preparing] } (by simp [preparing]) (by simp [preparing])

theorem State.Agreed.programLoaded {s : State} (h : s.Agreed none) (src : Option Port) (c : CellNo) (id program : Id) :
    (s.programLoaded src c id program).Agreed none := by
  unfold State.programLoaded
  extract_lets u awaited v
  have changed : u.Agreed none := h.onEquip ..
  have fits := changed.cells c (by simp)
  have cleared : v.Agreed none := changed.onCell rfl (fits.of_rest (sites := fits.sound.sites))
  refine .of_ite (fun waits => ?_) fun _ => cleared
  have at_c : v.cell c = { u.cell c with loadRequest := none } := State.setCell_cell_same ..
  simp only [awaited, Cell.awaitsProgram, Bool.and_eq_true, decide_eq_true_eq] at waits
  obtain ⟨q, prep, -⟩ := Option.map_eq_some_iff.mp waits.2
  refine ((cleared.onCell rfl ?_).testPreparation src c).serve src c
  rw [at_c]
  show ({ u.cell c with loadRequest := none, preparation := (u.cell c).preparation.map _ } : Cell).Fits _
  rw [prep]
  exact (fits.of_rest (y := { u.cell c with loadRequest := none }) (sites := fits.sound.sites)).prepares waits.1
    { q with program := .done, loadDeadline := none }

theorem State.Agreed.programRefused {s : State} (h : s.Agreed none) (src : Option Port) (c : CellNo) :
    (s.programRefused src c).Agreed none := by
  unfold State.programRefused
  have fits := h.cells c (by simp)
  have cleared := h.onCell (c := c) (f := fun x => { x with loadRequest := none }) rfl
    (fits.of_rest (sites := fits.sound.sites))
  refine .of_ite (fun waits => cleared.loadFailed ?_ src) fun _ => cleared
  simp only [Cell.awaitsProgram, Bool.and_eq_true, decide_eq_true_eq] at waits
  rw [State.onCell_eq, State.setCell_cell_same]
  exact waits.1

theorem epldOwner_agreed {read : List Byte → Checked (CellNo × Id)} (p : Port) : KeepsAgreed read (epldOwner p) := by
  intro f a s _ h
  unfold epldOwner
  dsimp only
  split
  · exact h
  · exact h
  · exact .of_ite (fun _ => h.programLoaded ..) fun _ => h.programRefused ..

theorem eldfOwner_agreed {read : List Byte → Checked (CellNo × Id)} (p : Port) : KeepsAgreed read (eldfOwner p) := by
  intro f a s _ h
  unfold eldfOwner
  dsimp only
  split
  · exact h
  · exact .of_outcomes (fun _ => h.programRefused ..) fun _ => h

theorem State.Agreed.temperatureReached {s : State} (h : s.Agreed none) (src : Option Port) (c : CellNo) :
    (s.temperatureReached src c).Agreed none := by
  unfold State.temperatureReached
  extract_lets soakTime u
  have fits := h.cells c (by simp)
  have reached : u.Agreed none := h.onCell rfl (fits.of_rest (sites := fits.sound.sites))
  split
  · rename_i q preparing _
    refine .of_ite (fun _ => ?_) fun _ => reached
    exact ((reached.onCell rfl ((reached.cells c (by simp)).prepares preparing _)).testPreparation src c).serve src c
  · exact reached

theorem etmpOwner_agreed {read : List Byte → Checked (CellNo × Int)} (p : Port) : KeepsAgreed read (etmpOwner p) := by
  intro f a s _ h
  unfold etmpOwner
  dsimp only
  split
  · exact h
  · exact .of_outcomes (fun _ => h) fun _ => .of_ite (fun _ => h) fun _ => h.temperatureReached ..

end Sys2Proof.Machine
end

section
/-! The owners of the run, release, configuration and port requests, and every command, keep lots and cells in
agreement. -/

namespace Sys2Proof.Machine

-- one theorem at a time: many at once, each with a thread of its own, can exceed the memory limit
set_option Elab.async false

open State (Agreed Around)

/-! ## ERND and EBIN (chapters 6 and 7) -/

theorem erndOwner_agreed {read : List Byte → Checked ErndFields} (p : Port) : KeepsAgreed read (erndOwner p) := by
  intro f a s _ h
  unfold erndOwner
  dsimp only
  split
  · exact h
  · exact h
  · rename_i r _ run
    refine .of_outcomes (fun _ => h) fun _ => .of_outcomes (fun _ => h) fun closing =>
      .of_outcomes (fun _ => h) fun _ => ?_
    have running := (h.cells a.cell (by simp)).sound.run.mp (by rw [run]; rfl)
    exact h.evaluateEnd (by tauto) ..

/-- What the counting of units leaves of a lot and a run. -/
structure Tally.Keeps (t u : Tally) : Prop where
  lot  : t.lot.Stays u.lot
  same : u.lot.state = t.lot.state
  run  : ∀ st, t.run.Fits st → u.run.Fits st

namespace Tally.Keeps

theorem refl (t : Tally) : t.Keeps t := ⟨.of_same, rfl, fun _ fits => fits⟩

theorem trans {t u v : Tally} (h : t.Keeps u) (k : u.Keeps v) : t.Keeps v where
  lot := .of_same (k.lot.id.trans h.lot.id) (k.lot.cell.trans h.lot.cell) (k.lot.holdCount.trans h.lot.holdCount)
    (k.lot.overflow.trans h.lot.overflow) (k.same.trans h.same)
  same := k.same.trans h.same
  run st fits := k.run st (h.run st fits)

theorem exclude (t : Tally) : t.Keeps t.exclude :=
  ⟨.of_same, rfl, fun _ fits => ⟨fits.running, fits.stopping, fits.count, fits.reason, fits.deadline⟩⟩

/-- A unit counted changes the lot's counts and the run's counts only. -/
theorem count (t : Tally) {l : Lot} {r : Run} (stays : t.lot.Stays l) (same : l.state = t.lot.state)
    (fits : ∀ st, t.run.Fits st → r.Fits st) : t.Keeps (t.count l r) :=
  ⟨stays, same, fun st k => have f := fits st k; ⟨f.running, f.stopping, f.count, f.reason, f.deadline⟩⟩

end Tally.Keeps

/-- The store of a unit changes the lot's bins only. -/
theorem Lot.store_cases (l : Lot) (plan : BinPlan) (b : Fin 16) :
    ∃ final next : Bins, l.store plan b = { l with final := final, poolNext := next } := by
  unfold Lot.store
  split
  · exact ⟨_, _, rfl⟩
  · exact ⟨_, _, rfl⟩

theorem Tally.unitFirst_keeps (t : Tally) (plan : BinPlan) (site : Fin 8) (b : Fin 16) :
    t.Keeps (t.unitFirst plan site b) := by
  unfold Tally.unitFirst
  split
  · obtain ⟨final, next, e⟩ := Lot.store_cases { t.lot with tested := t.lot.tested + 1 } plan b
    rw [e]
    exact .count t .of_same rfl fun _ fits => ⟨fits.running, fits.stopping, fits.count, fits.reason, fits.deadline⟩
  · exact .exclude t

theorem Tally.unitRetest_keeps (t : Tally) (plan : BinPlan) (origin b : Fin 16) :
    t.Keeps (t.unitRetest plan origin b) := by
  unfold Tally.unitRetest
  split
  · obtain ⟨final, next, e⟩ := Lot.store_cases { t.lot with poolNow := t.lot.poolNow.dec origin } plan b
    rw [e]
    exact .count t .of_same rfl fun _ fits => fits
  · exact .exclude t

theorem Tally.unit_keeps (plan : BinPlan) (e : BinEntry) (t : Tally) : t.Keeps (Tally.unit plan e t) := by
  unfold Tally.unit
  split
  · split
    · exact t.unitFirst_keeps ..
    · exact t.unitRetest_keeps ..
  · exact t.unitFirst_keeps ..

theorem Tally.repeat_keeps {f : Tally → Tally} (one : ∀ t : Tally, t.Keeps (f t)) (n : Nat) (t : Tally) :
    t.Keeps (Nat.repeat f n t) := by
  induction n with
  | zero => exact .refl t
  | succ n ih => exact ih.trans (one _)

theorem Tally.entries_keeps (plan : BinPlan) (es : List BinEntry) (t : Tally) : t.Keeps (Tally.entries plan t es) := by
  induction es generalizing t with
  | nil => exact .refl t
  | cons e es ih => exact (Tally.repeat_keeps (Tally.unit_keeps plan e) _ t).trans (ih _)

namespace State.Agreed

variable {s t : State} {c : CellNo} {id : Id}

/-- The lot is replaced by one with its links and holds. -/
theorem replaceLot (h : s.Agreed none) {l m : Lot} (known : s.lot l.id = some l) (stays : l.Stays m) :
    (s.onLot l.id fun _ => m).Agreed none := by
  have same : (s.onLot l.id fun _ => m) = s.onLot l.id fun x => if x.id = l.id then m else x := by
    simp only [State.onLot]
    congr 1
    refine List.map_congr_left fun x _ => ?_
    by_cases here : x.id = l.id <;> simp [here]
  rw [same]
  refine h.onLot l.id _ (fun x known' => ?_) fun x => ?_
  · obtain rfl := Option.some.inj (known.symm.trans known')
    rwa [if_pos rfl]
  · split
    · rename_i here
      rw [stays.id, here]
    · rfl

theorem checkExcess (h : s.Agreed none) (src : Option Port) (id : Id) (before after : Nat) :
    (s.checkExcess src id before after).Agreed none := of_ite (fun _ => h.placeHold ..) fun _ => h

theorem runningChecks (h : s.Agreed none) (src : Option Port) (id : Id) : (s.runningChecks src id).Agreed none := by
  unfold State.runningChecks
  split
  · exact of_ite (fun _ => h.checkRatios ..) fun _ => h
  · exact h

theorem removeSite (h : s.Agreed none) (src : Option Port) (c : CellNo) (id : Id) (r : Run) (site : Fin 8) (top : Nat) :
    (s.removeSite src c id r site top).Agreed none := by
  have fits := h.cells c (by simp)
  have dropped := h.onCell (c := c) (f := fun x => { x with active := SiteSet.drop x.active site }) rfl
    (fits.of_rest (sites := SiteSet.drop_subset site fits.sound.sites))
  exact of_ite (fun _ => (dropped.notifyMembers c _).placeHold ..) fun _ => dropped.notifyMembers c _

theorem checkSites (h : s.Agreed none) (src : Option Port) (c : CellNo) (id : Id) :
    (s.checkSites src c id).Agreed none := by
  unfold State.checkSites
  split
  · refine of_ite (fun _ => ?_) fun _ => h
    split
    · exact h.removeSite ..
    · exact h
  · exact h

theorem applyResults (h : s.Agreed none) {l : Lot} {r : Run} (known : s.lot l.id = some l)
    (run : (s.cell c).run = some r) (src : Option Port) (es : List BinEntry) : (s.applyResults src c l r es).1.Agreed none := by
  have keeps := Tally.entries_keeps (s.planOf l) es ⟨l, r, 0, 0⟩
  have sound := (h.cells c (by simp)).sound
  have running := sound.run.mp (by rw [run]; rfl)
  have counted := h.replaceLot known keeps.lot
  have applied := counted.onCell (c := c)
    (f := fun x => { x with run := some (Tally.entries (s.planOf l) ⟨l, r, 0, 0⟩ es).run }) rfl (by
      have fits := counted.cells c (by simp)
      have same := sound.runs running running (keeps.run _ (sound.fits r run))
      exact ⟨same, fits.running, fits.paused⟩)
  exact (((applied.checkExcess ..).runningChecks ..).checkSites ..).testClose ..

/-! ## QRES, RLSE and STAK (chapter 9) -/

theorem judgeSample (h : s.Agreed none) {l : Lot} (known : s.lot l.id = some l) (sampling : l.state = .sampling)
    (r : Nat) : (s.judgeSample l r).1.Agreed none := by
  have judged := h.onLot l.id (fun l => { l with rejects := r, samplePending := false }) fun _ _ => .of_same
  have known' := s.onLot_lot_same (fun l => { l with rejects := r, samplePending := false }) known fun _ => rfl
  unfold State.judgeSample
  dsimp only
  split
  · refine (judged.onLot l.id (fun l => { l with state := .accepted }) fun m known'' => ?_).nlot l.id .accepted
    obtain rfl := Option.some.inj (known'.symm.trans known'')
    exact .of_past (by simp [Lot.Past, sampling]) (by simp [Lot.Past])
  · exact judged.placeHold ..

theorem retire (h : s.Agreed none) (id : Id) (past : ∀ l, s.lot id = some l → l.Past)
    (unshipped : ∀ r ∈ s.shipments, r.lot ≠ id) : (s.retire id).Agreed none := by
  unfold State.retire
  split
  · rename_i l known
    obtain rfl := s.lot_id known
    exact h.freeLot known (past l known).2 unshipped _
  · exact h

end State.Agreed

theorem ebinOwner_agreed {read : List Byte → Checked EbinFields} (p : Port) : KeepsAgreed read (ebinOwner p) := by
  intro f a s _ h
  unfold ebinOwner
  split
  · exact h
  · rename_i l known
    split
    · exact h
    · refine .of_outcomes (fun _ => h) fun _ => ?_
      split
      · exact h
      · rename_i r run
        refine .of_outcomes (fun _ => h) fun _ => ?_
        split
        · exact h
        · exact h.applyResults (by rw [s.lot_id known]; exact known) run ..

theorem qresOwner_agreed {read : List Byte → Checked (Id × Nat × Nat)} : KeepsAgreed read qresOwner := by
  intro f a s _ h
  unfold qresOwner
  dsimp only
  split
  · exact h
  · rename_i l known
    refine .of_outcomes (fun _ => h) fun sampling => .of_outcomes (fun _ => h) fun _ =>
      .of_outcomes (fun _ => h) fun _ => ?_
    exact h.judgeSample (by rw [s.lot_id known]; exact known) (by tauto) _

theorem rlseOwner_agreed {read : List Byte → Checked Id} : KeepsAgreed read rlseOwner := by
  intro f id s _ h
  unfold rlseOwner
  split
  · exact h
  · rename_i l known
    refine .of_outcomes (fun _ => h) fun accepted => .of_outcomes (fun _ => h) fun _ =>
      .of_outcomes (fun _ => h) fun _ => ?_
    have past : l.Past := by
      have accepted : l.state = .accepted := by simpa using accepted
      simp [Lot.Past, accepted]
    have shipped : ({ s with shipments := s.shipments ++ [s.shipmentOf l] } : State).Agreed none := by
      refine h.withPlaces h.linked.queue fun r mem => ?_
      obtain mem | mem := List.mem_append.mp mem
      · exact h.linked.shipments r mem
      · obtain rfl := List.mem_singleton.mp mem
        exact ⟨l, by show s.lot l.id = _; rw [s.lot_id known]; exact known, past⟩
    have released := (shipped.onLot id (fun l => { l with state := .released }) fun m known' => by
      obtain rfl := Option.some.inj (known.symm.trans known')
      exact .of_past past (by simp [Lot.Past])).nlot id .released
    exact .of_ite (fun _ => released.attentionTest) fun _ => released

theorem stakOwner_agreed {read : List Byte → Checked Unit} : KeepsAgreed read stakOwner := by
  intro f _ s _ h
  unfold stakOwner
  split
  · rename_i r found
    obtain ⟨l, known, past⟩ := h.linked.shipments r (List.mem_of_find?_eq_some found)
    refine (h.dropShipment r.lot).retire r.lot (fun m known' => ?_)
      fun q mem => by simpa using (List.mem_filter.mp mem).2
    obtain rfl := Option.some.inj (known.symm.trans known')
    exact past
  · exact h

theorem sarmOwner_agreed {read : List Byte → Checked Unit} : KeepsAgreed read sarmOwner :=
  fun _ _ s _ h => (h.of_same (t := { s with armed := true })).attentionTest

/-! ## Clock and configuration (chapters 10 and 11) -/

theorem clksOwner_agreed {read : List Byte → Checked (Option Nat)} : KeepsAgreed read clksOwner := by
  intro _ a s _ h
  unfold clksOwner
  split
  · exact h
  · exact .of_outcomes (fun _ => h) fun _ => h.of_same.evaluateGates _

theorem wprdOwner_agreed {read : List Byte → Checked (Fin 32 × Product)} : KeepsAgreed read wprdOwner :=
  fun _ _ _ _ h => .of_outcomes (fun _ => h) fun _ => .of_outcomes (fun _ => h) fun _ => h.of_same

theorem wbplOwner_agreed {read : List Byte → Checked (Fin 8 × BinPlan)} : KeepsAgreed read wbplOwner := by
  intro _ a s _ h
  refine .of_outcomes (fun _ => h) fun _ => ?_
  split
  · exact h
  · exact h.of_same

theorem wparOwner_agreed {read : List Byte → Checked Parameters} : KeepsAgreed read wparOwner := by
  intro _ new s _ h
  have set : ({ s with tables := { s.tables with parameters := new } } : State).Agreed none := h.of_same
  have fresh := State.Agreed.of_ite (p := s.tables.parameters.agingStep = new.agingStep) (fun _ => set)
    fun _ => set.recompute
  exact .of_ite (fun _ => fresh) fun _ => fresh.periodChanged _

theorem wwinOwner_agreed {read : List Byte → Checked (Fin 4 × Window)} : KeepsAgreed read wwinOwner :=
  fun _ _ _ _ h => .of_outcomes (fun _ => h) fun _ => .of_outcomes (fun _ => h) fun _ => h.of_same.evaluateGates _

theorem crdyOwner_agreed {read : List Byte → Checked Unit} : KeepsAgreed read crdyOwner := by
  intro _ _ s _ h
  unfold crdyOwner
  split
  · exact h
  · exact h.of_same

theorem csavOwner_agreed {read : List Byte → Checked Unit} : KeepsAgreed read csavOwner :=
  fun _ _ _ _ h => .of_outcomes (fun _ => h.of_same) fun _ => h

/-! ## Requests that leave the records -/

theorem pstaOwner_agreed {read : List Byte → Checked Unit} (p : Port) : KeepsAgreed read (pstaOwner p) :=
  fun _ _ _ _ h => h.of_same

theorem qlotSummaryOwner_agreed {read : List Byte → Checked Id} : KeepsAgreed read qlotSummaryOwner := by
  intro _ id s _ h
  unfold qlotSummaryOwner
  split <;> exact h

theorem qlotCountsOwner_agreed {read : List Byte → Checked Id} : KeepsAgreed read qlotCountsOwner := by
  intro _ id s _ h
  unfold qlotCountsOwner
  split <;> exact h

theorem qlotHoldsOwner_agreed {read : List Byte → Checked (Id × Nat)} : KeepsAgreed read qlotHoldsOwner := by
  intro _ a s _ h
  unfold qlotHoldsOwner
  split <;> exact h

theorem qeqpOwner_agreed {read : List Byte → Checked Id} : KeepsAgreed read qeqpOwner := by
  intro _ id s _ h
  unfold qeqpOwner
  split <;> exact h

end Sys2Proof.Machine
end

section
/-! Every command and every step keeps lots and cells in agreement. -/

namespace Sys2Proof.Machine

-- one theorem at a time: many at once, each with a thread of its own, can exceed the memory limit
set_option Elab.async false

open State (Agreed)

/-! ## What a step starts from and what it ends with -/

theorem State.Sound.agreed {s : State} (h : s.Sound) : s.Agreed none where
  linked :=
    { ids := h.lots.ids
      bound := fun _ l known => h.binding.bound l (State.lot_mem known)
      named := fun _ l c known named => by
        rw [← s.lot_id known]
        exact h.binding.named l (State.lot_mem known) c named
      names := fun c id bound => by
        obtain ⟨l, mem, rfl, named⟩ := h.binding.names c id bound
        exact ⟨l, State.lot_of_mem h.lots.ids mem, named⟩
      queue := fun w mem => by
        obtain ⟨l, there, same, waits, -⟩ := (h.queue.exact w.lot).mp ⟨w, mem, rfl⟩
        exact ⟨l, same ▸ State.lot_of_mem h.lots.ids there, waits⟩
      shipments := fun r mem => by
        obtain ⟨l, there, same, released⟩ := (h.release.exact r.lot).mp ⟨r, mem, rfl⟩
        exact ⟨l, same ▸ State.lot_of_mem h.lots.ids there, by simp [Lot.Past, released]⟩ }
  holds :=
    { keys := h.holds.keys
      known := fun r mem => by
        obtain ⟨l, there, same⟩ := h.holds.lots r mem
        rw [← same, State.lot_of_mem h.lots.ids there]
        simp
      count := fun id l known => by
        rw [← s.lot_id known]
        exact h.holds.count l (State.lot_mem known) }
  cells c _ := by
    refine ⟨h.binding.cells c, fun running id bound => ?_, fun paused id bound => ?_⟩ <;>
      obtain ⟨l, mem, rfl, named⟩ := h.binding.names c id bound <;>
      rw [State.lotUnheld_eq (State.lot_of_mem h.lots.ids mem)]
    · exact h.binding.running l mem c named running
    · exact h.binding.paused l mem c named paused
  ready := fun _ _ work => by cases work

theorem State.Agreed.binding {s : State} (h : s.Agreed none) : s.BindingSound := by
  have known {l : Lot} (mem : l ∈ s.lots) : s.lot l.id = some l := State.lot_of_mem h.linked.ids mem
  refine ⟨fun c => (h.cells c (by simp)).sound, fun l mem => h.linked.bound _ l (known mem),
    fun l mem c named => h.linked.named _ l c (known mem) named, fun c id bound => ?_, fun l mem c named running => ?_,
    fun l mem c named paused => ?_⟩
  · obtain ⟨l, known, named⟩ := h.linked.names c id bound
    exact ⟨l, State.lot_mem known, s.lot_id known, named⟩
  · rw [← State.lotUnheld_eq (known mem)]
    exact (h.cells c (by simp)).running running _ (h.linked.named _ l c (known mem) named)
  · rw [← State.lotUnheld_eq (known mem)]
    exact (h.cells c (by simp)).paused paused _ (h.linked.named _ l c (known mem) named)

/-- The agreement of lots and cells is theirs alone. -/
theorem State.BindingSound.of_records {s t : State} (h : s.BindingSound) (lots : t.lots = s.lots)
    (cells : t.cells = s.cells) : t.BindingSound := by
  have cell (d : CellNo) : t.cell d = s.cell d := by rw [State.cell, cells, State.cell]
  exact
    { cells := fun c => by rw [cell]; exact h.cells c
      bound := lots ▸ h.bound
      named := fun l mem c => by rw [cell]; exact h.named l (lots ▸ mem) c
      names := fun c id => by rw [cell, lots]; exact h.names c id
      running := fun l mem c => by rw [cell]; exact h.running l (lots ▸ mem) c
      paused := fun l mem c => by rw [cell]; exact h.paused l (lots ▸ mem) c }

theorem State.BindingSound.of_onlyPorts {s t : State} (h : s.BindingSound) (ports : s.OnlyPorts t) :
    t.BindingSound := by
  rw [ports]
  exact h.of_records rfl rfl

/-! ## The examination of a request (R8) -/

theorem State.Agreed.answer {s : State} (h : s.Agreed none) (p : Port) (r : Option Req) (reply : Reply) :
    (s.answer p r reply).Agreed none := h.of_same

/-- The rows of supervisors' requests: what the owner makes of the record, the answer keeps. -/
theorem State.checkFields_keeps {α : Type} (Keep : State → Prop) {s : State}
    (ports : ∀ {u v : State}, Keep u → u.OnlyPorts v → Keep v) (h : Keep s) {p : Port} {r : Req}
    {read : List Byte → Checked α} {owner : Owner α} {f : Frame}
    (carries : ∀ a, read f.payload = .ok a → Keep (owner f a s).1) : Keep (s.checkFields p r read owner f) := by
  unfold State.checkFields
  split
  · exact ports h (State.onlyPorts_answer ..)
  · rename_i a reads
    exact ports (carries a reads) (State.onlyPorts_answer ..)

namespace State.Agreed

variable {s : State} {α : Type} {read : List Byte → Checked α} {owner : Owner α}

theorem checkFields (h : s.Agreed none) (keeps : KeepsAgreed read owner) (p : Port) (r : Req) (f : Frame) :
    (s.checkFields p r read owner f).Agreed none :=
  State.checkFields_keeps (State.Agreed none) of_onlyPorts h fun a reads => keeps f a s reads h

theorem checkKnown (h : s.Agreed none) (keeps : KeepsAgreed read owner) (p : Port) (r : Req) (f : Frame) (i : Position)
    (e : Entry) : (s.checkKnown p r read owner f i e).Agreed none := by
  have refreshed := h.setEntry i (some (e.refreshed p))
  unfold State.checkKnown
  dsimp only
  split
  · exact (refreshed.reportReturn ..).answer ..
  · exact ((keeps _ _ _ ‹_› refreshed).reportReturn ..).answer ..

theorem checkSender (h : s.Agreed none) (keeps : KeepsAgreed read owner) (p : Port) (r : Req) (f : Frame) :
    (s.checkSender p r read owner f).Agreed none := by
  refine of_ite (fun _ => h.answer ..) fun _ => ?_
  split
  · exact of_ite (fun _ => h.checkFields keeps p r f) fun _ => h.answer ..
  · exact of_ite (fun _ => h.answer ..) fun _ =>
      of_ite (fun _ => h.checkFields keeps p r f) fun _ => h.checkKnown keeps p r f _ _

theorem examine (h : s.Agreed none) (keeps : KeepsAgreed read owner) (p : Port) (r : Req) (v : Service) :
    (s.examine p r read owner v).Agreed none :=
  of_ite (fun _ => h.of_same) fun _ => of_ite (fun _ => h.answer ..) fun _ => of_ite
    (fun _ => of_ite (fun _ => h.answer ..) fun _ => h.checkFields keeps p r _) fun _ => h.checkSender keeps p r _

theorem request (h : s.Agreed none) (keeps : KeepsAgreed read owner) (p : Port) (r : Req) (mine : List Byte → Bool) :
    (s.request p r mine read owner).Agreed none := by
  unfold State.request
  dsimp only
  split
  · exact of_ite (fun _ => h.settle.examine keeps p r _) fun _ => h.settle
  · exact h.settle

/-- LREM: the shipments aside, its lot leaves as a taken one does. -/
theorem lremOwner (h : s.Agreed none) (f : Frame) (id : Id) : (lremOwner f id s).1.BindingSound := by
  unfold Machine.lremOwner
  split
  · exact h.binding
  · rename_i l known
    split
    · exact h.binding
    · rename_i free
      obtain rfl := s.lot_id known
      have freed := (h.dropShipment l.id).freeLot (l := l) known (by tauto)
        (fun r mem => by simpa using (List.mem_filter.mp mem).2) .removed
      exact freed.binding.of_records rfl rfl

theorem lrem (h : s.Agreed none) (p : Port) (mine : List Byte → Bool) (read : List Byte → Checked Id) :
    (s.request p .lrem mine read Machine.lremOwner).BindingSound := by
  have settled := h.settle
  have quiet := settled.binding
  have answered (r : Option Req) (reply : Reply) : (s.settle.answer p r reply).BindingSound :=
    quiet.of_onlyPorts (State.onlyPorts_answer ..)
  unfold State.request
  dsimp only
  split
  · split
    · unfold State.examine
      dsimp only
      split
      · exact quiet.of_records rfl rfl
      · split
        · exact answered ..
        · rename_i permitted
          have host : p = hostPort := by simpa [Req.permitted] using permitted
          subst host
          rw [if_pos (by decide)]
          split
          · exact answered ..
          · exact State.checkFields_keeps State.BindingSound State.BindingSound.of_onlyPorts quiet
              fun a _ => settled.lremOwner _ a
    · exact quiet
  · exact quiet

/-! ## The events of the links and of the part -/

theorem onPort (h : s.Agreed none) (p : Port) (f : PortUnit → PortUnit) : (s.onPort p f).Agreed none := h.of_same

theorem resumeWaiting (h : s.Agreed none) (f : Frame) : (s.resumeWaiting f).Agreed none := by
  unfold State.resumeWaiting
  split
  · exact h.checkFields lentConfigured_agreed ..
  · exact h.checkFields cdckConfigured_agreed ..
  · exact h

theorem endReattempt (h : s.Agreed none) (reply : StoreReply) (f : Frame) : (s.endReattempt reply f).Agreed none :=
  of_ite (fun _ => (h.of_same.periodChanged _).resumeWaiting f) fun _ => h.of_same.answer ..

theorem endWrite (h : s.Agreed none) (result : ReadBack) : (s.endWrite result).Agreed none := by
  have written (store : Store) : ({ s with storeJob := none, store := store } : State).Agreed none := h.of_same
  cases result <;> exact (written _).answer ..

end State.Agreed

/-- A request's row keeps lots and cells in agreement. -/
theorem exec_request_keepsBinding {i : Instr} {p : Port} {r : Req} {mine : List Byte → Bool} {s t : State}
    (row : requestOf i = some (p, r, mine)) (h : s.Agreed none) (next : exec i s = .next t) : t.BindingSound := by
  have kept {α : Type} {read : List Byte → Checked α} {owner : Owner α} (keeps : KeepsAgreed read owner)
      (runs : exec i s = .next (s.request p r mine read owner)) : t.BindingSound := by
    rw [runs] at next
    injection next with e
    exact e ▸ (h.request keeps p r mine).binding
  cases i with
  | lrem _ => cases row; injection next with e; exact e ▸ h.lrem ..
  | lent _ => cases row; exact kept (afterReattempt_agreed lentConfigured_agreed) rfl
  | lpri _ => cases row; exact kept lpriOwner_agreed rfl
  | lsht _ => cases row; exact kept lshtOwner_agreed rfl
  | qlotSummary _ => cases row; exact kept qlotSummaryOwner_agreed rfl
  | qlotCounts _ => cases row; exact kept qlotCountsOwner_agreed rfl
  | qlotHolds _ => cases row; exact kept qlotHoldsOwner_agreed rfl
  | qlotList _ => cases row; exact kept (owner := qlotListOwner) (fun _ _ _ _ h => h) rfl
  | hold _ => cases row; exact kept (holdOwner_agreed _) rfl
  | hclr _ => cases row; exact kept (hclrOwner_agreed _) rfl
  | hovc _ => cases row; exact kept hovcOwner_agreed rfl
  | cdck _ => cases row; exact kept (afterReattempt_agreed cdckConfigured_agreed) rfl
  | cund _ => cases row; exact kept cundOwner_agreed rfl
  | crdk _ => cases row; exact kept crdkOwner_agreed rfl
  | cmod _ => cases row; exact kept cmodOwner_agreed rfl
  | csen _ => cases row; exact kept csenOwner_agreed rfl
  | qcel _ => cases row; exact kept (owner := qcelOwner) (fun _ _ _ _ h => h) rfl
  | cunb _ => cases row; exact kept cunbOwner_agreed rfl
  | qeqp _ => cases row; exact kept qeqpOwner_agreed rfl
  | qeqpList _ => cases row; exact kept (owner := qeqpListOwner) (fun _ _ _ _ h => h) rfl
  | stak _ => cases row; exact kept stakOwner_agreed rfl
  | sarm _ => cases row; exact kept sarmOwner_agreed rfl
  | qres _ => cases row; exact kept qresOwner_agreed rfl
  | rlse _ => cases row; exact kept rlseOwner_agreed rfl
  | clks _ => cases row; exact kept clksOwner_agreed rfl
  | wprd _ => cases row; exact kept wprdOwner_agreed rfl
  | wbpl _ => cases row; exact kept wbplOwner_agreed rfl
  | wpar _ => cases row; exact kept wparOwner_agreed rfl
  | wwin _ => cases row; exact kept wwinOwner_agreed rfl
  | crdy _ => cases row; exact kept crdyOwner_agreed rfl
  | csav _ => cases row; exact kept csavOwner_agreed rfl
  | frst _ => cases row; exact kept (owner := frstOwner) (fun _ _ _ _ h => h) rfl
  | eann _ => cases row; exact kept (eannOwner_agreed _) rfl
  | eabl _ => cases row; exact kept eablOwner_agreed rfl
  | ecnf _ => cases row; exact kept (ecnfOwner_agreed _) rfl
  | epld _ => cases row; exact kept (epldOwner_agreed _) rfl
  | eldf _ => cases row; exact kept (eldfOwner_agreed _) rfl
  | etmp _ => cases row; exact kept (etmpOwner_agreed _) rfl
  | ernd _ => cases row; exact kept (erndOwner_agreed _) rfl
  | ebin _ => cases row; exact kept (ebinOwner_agreed _) rfl
  | sens _ => cases row; exact kept (owner := sensOwner _) (fun _ _ _ _ h => h) rfl
  | psta _ => cases row; exact kept (pstaOwner_agreed _) rfl
  | _ => cases row

/-- Every command keeps lots and cells in agreement. -/
theorem exec_keepsBinding {i : Instr} {s t : State} (h : s.Agreed none) (next : exec i s = .next t) :
    t.BindingSound := by
  have settled := h.settle
  cases row : requestOf i with
  | some request => exact exec_request_keepsBinding row h next
  | none =>
    refine State.Agreed.binding ?_
    cases i with
    | powerOnReset cut => injection next with e; exact e ▸ .powerOn cut
    | startUpLoad reply =>
      injection next with e
      exact e ▸ .of_ite (fun _ => settled.endLoad reply) fun _ => settled
    | storeLoadReattempt reply =>
      injection next with e
      subst e
      split
      · exact settled.endReattempt reply _
      · exact settled
    | storeWrite result => injection next with e; exact e ▸ .of_ite (fun _ => settled.endWrite result) fun _ => settled
    | frameComplete p _ | lengthBelow6 p _ | gapAbort p | receivedByte p _ =>
      injection next with e
      exact e ▸ settled.onPort p _
    | frameSent p =>
      injection next with e
      exact e ▸ .of_ite (fun _ => (settled.onPort p _).withDue _) fun _ => settled.onPort p _
    | secondsTick => injection next with e; exact e ▸ settled.second
    | floorReset | minuteTick | entryStale _ | soakEnd _ | negotiationDeadlineExpiry _ | loadDeadlineExpiry _
      | settleDeadlineExpiry _ | closeDeadlineExpiry _ =>
      injection next with e
      exact e ▸ h.takeListed _
    | entryRemoval _ => injection next with e; exact e ▸ .of_ite (fun _ => h) fun _ => h.takeListed _
    | unknownCode p =>
      injection next with e
      subst e
      split
      · exact .of_ite (fun _ => .of_ite (fun _ => settled.onPort p _) fun _ => settled.answer p _ _) fun _ => settled
      · exact settled
    | _ => cases row

/-- Settles O57: the records together are in agreement at a safe state, and every update of a lot, a cell, the queue,
the holds or the shipments keeps them so. -/
theorem bindingOfLotsAndCellsKept : Obligations.BindingOfLotsAndCellsKept := by
  intro s t sound next
  unfold step at next
  split at next
  · injection next with e
    exact e ▸ sound.binding
  · rename_i i rest _
    have front : ({ s with pending := rest } : State).Agreed none := sound.agreed.of_same
    exact exec_keepsBinding front next

end Sys2Proof.Machine
end

section
/-! The floor host's cell requests (R37, R44, R45, R47, R52, R53, R87). -/

namespace Sys2Proof.Machine

-- one theorem at a time: many at once, each with a thread of its own, can exceed the memory limit
set_option Elab.async false

/-! ## A request carried out -/

/-- A supervisor's request is carried out by its owner and answered. -/
theorem exec_carries {α : Type} {i : Instr} {s u : State} {p : Port} {r : Req} {mine : List Byte → Bool}
    {read : List Byte → Checked α} {owner : Owner α} {payload : List Byte} {a : α} {reply : Reply}
    (runs : exec i s = .next (s.request p r mine read owner)) (asks : s.Asks p r payload) (fits : mine payload = true)
    (reads : read payload = .ok a) (owns : ∀ f, owner f a s = (u, reply)) :
    exec i s = .next (u.answer p (some r) reply) := by
  obtain ⟨f, h⟩ := State.request_ok (mine := mine) (read := read) (owner := owner) asks fits reads
  rw [runs, h, owns f]

section host
variable {s u : State} {c : CellNo} {reply : Reply}

theorem exec_cund (asks : s.Asks 0 .cund (num1 c)) (owns : ∀ f, cundOwner f c s = (u, reply)) :
    exec (.cund 0) s = .next (u.answer 0 (some .cund) reply) := exec_carries rfl asks rfl (readCell_bytes c) owns

theorem exec_crdk (asks : s.Asks 0 .crdk (num1 c)) (owns : ∀ f, crdkOwner f c s = (u, reply)) :
    exec (.crdk 0) s = .next (u.answer 0 (some .crdk) reply) := exec_carries rfl asks rfl (readCell_bytes c) owns

theorem exec_cunb (asks : s.Asks 0 .cunb (num1 c)) (owns : ∀ f, cunbOwner f c s = (u, reply)) :
    exec (.cunb 0) s = .next (u.answer 0 (some .cunb) reply) := exec_carries rfl asks rfl (readCell_bytes c) owns

theorem exec_cmod {m : Mode} (asks : s.Asks 0 .cmod (num1 c ++ [m.byte]))
    (owns : ∀ f, cmodOwner f (c, m) s = (u, reply)) :
    exec (.cmod 0) s = .next (u.answer 0 (some .cmod) reply) := exec_carries rfl asks rfl (readCmod_bytes c m) owns

theorem exec_csen {site : Fin 8} (asks : s.Asks 0 .csen (num1 c ++ num1 site))
    (owns : ∀ f, csenOwner f (c, site) s = (u, reply)) :
    exec (.csen 0) s = .next (u.answer 0 (some .csen) reply) := exec_carries rfl asks rfl (readCsen_bytes c site) owns

/-- CDCK while CONFIGURED is its owner's at once (R37, R186). -/
theorem exec_cdck {h t : Id} (handler : h ≠ 0) (tester : t ≠ 0) (asks : s.Asks 0 .cdck (num1 c ++ be32 h ++ be32 t))
    (configured : s.configState = .configured) (owns : ∀ f, cdckConfigured f (c, h, t) s = (u, reply)) :
    exec (.cdck 0) s = .next (u.answer 0 (some .cdck) reply) := by
  refine exec_carries rfl asks rfl (readCdck_bytes c handler tester) fun f => ?_
  rw [afterReattempt, if_neg (by simp [configured])]
  exact owns f

end host

/-! ## A negotiating cell (R44) -/

theorem Cell.negotiating_iff {x : Cell} : x.negotiating = true ↔ x.state = .offer ∨ x.state = .confirm := by
  simp [Cell.negotiating]

/-- Settles O35: the first thing each owner looks at is whether the cell negotiates. -/
theorem negotiatingCellAnswersBusy : Obligations.NegotiatingCellAnswersBusy := by
  intro s c configured state
  have negotiating := Cell.negotiating_iff.mpr state
  have only {r : Req} {payload : List Byte} (asks : s.Asks 0 r payload) {i : Instr}
      (runs : exec i s = .next (s.answer 0 (some r) .busy)) :
      ∃ t, exec i s = .next t ∧ OnlyAnswered s t 0 ∧ AnsweredBusy s t 0 := by
    obtain ⟨v, service⟩ := asks.service
    exact ⟨_, runs, onlyAnswered_answer service _ (by simp), answeredBusy_answer service _⟩
  refine ⟨fun h t handler tester asks =>
      only asks (exec_cdck handler tester asks configured fun _ => if_pos negotiating),
    fun asks => only asks (exec_cund asks fun _ => if_pos negotiating),
    fun asks => only asks (exec_crdk asks fun _ => if_pos negotiating),
    fun m asks => only asks (exec_cmod asks fun _ => if_pos negotiating),
    fun site asks => only asks (exec_csen asks fun _ => if_pos negotiating),
    fun asks => only asks (exec_cunb asks fun _ => if_pos negotiating)⟩

/-! ## CRDK, CMOD and CSEN (R45, R47, R53) -/

section owners
variable {s : State} {c : CellNo} (f : Frame)

theorem crdkOwner_offers (state : (s.cell c).state = .fault ∨ (s.cell c).state = .lost) :
    crdkOwner f c s = (s.enterOffer c, .good []) := by
  rcases state with e | e <;> simp [crdkOwner, Cell.negotiating, e]

theorem crdkOwner_refuses
    (state : (s.cell c).state ∈ [CellState.vacant, .idle, .preparing, .running, .stopping, .closing, .paused]) :
    crdkOwner f c s = (s, .check .cellState (arg c.val)) := by
  simp only [List.mem_cons, List.not_mem_nil, or_false] at state
  rcases state with e | e | e | e | e | e | e <;> simp [crdkOwner, Cell.negotiating, e]

theorem modeChange_iff {was now : Mode} :
    modeChange was now = true ↔ now ≠ was ∧ (now = .maintenance ∨ was = .maintenance) := by
  simp only [modeChange, Bool.and_eq_true, Bool.or_eq_true, decide_eq_true_eq]
  exact and_congr ne_comm or_comm

theorem cmodOwner_refuses {m : Mode}
    (state : (s.cell c).state ∈ [CellState.vacant, .preparing, .running, .stopping, .closing, .paused, .lost, .fault]) :
    cmodOwner f (c, m) s = (s, .check .cellState (arg c.val)) := by
  simp only [List.mem_cons, List.not_mem_nil, or_false] at state
  rcases state with e | e | e | e | e | e | e | e <;> simp [cmodOwner, Cell.negotiating, e]

theorem cmodOwner_wrongMode {m : Mode} (idle : (s.cell c).state = .idle)
    (other : ¬(m ≠ (s.cell c).mode ∧ (m = .maintenance ∨ (s.cell c).mode = .maintenance))) :
    cmodOwner f (c, m) s = (s, .check .wrongMode (arg c.val)) := by
  rw [← modeChange_iff, Bool.not_eq_true] at other
  simp [cmodOwner, Cell.negotiating, idle, other]

theorem cmodOwner_changes {m : Mode} (idle : (s.cell c).state = .idle)
    (other : m ≠ (s.cell c).mode ∧ (m = .maintenance ∨ (s.cell c).mode = .maintenance)) :
    cmodOwner f (c, m) s =
      (((s.setCell c { s.cell c with mode := m }).ncel c).serve (some hostPort) c, .good []) := by
  rw [← modeChange_iff] at other
  simp [cmodOwner, Cell.negotiating, idle, other, State.moveCell_eq]

/-- The site is among the cell's common sites. -/
def Cell.commonSite (x : Cell) (site : Fin 8) : Prop := ∃ cap, x.common = some cap ∧ cap.sites.getLsbD site.val = true

theorem Cell.commonSite_iff {x : Cell} {site : Fin 8} :
    (x.common.map fun cap => SiteSet.has cap.sites site).getD false = true ↔ x.commonSite site := by
  cases e : x.common <;> simp [Cell.commonSite, SiteSet.has, e]

theorem csenOwner_refuses {site : Fin 8}
    (state : (s.cell c).state ∈ [CellState.vacant, .running, .stopping, .closing, .lost, .fault]) :
    csenOwner f (c, site) s = (s, .check .cellState (arg c.val)) := by
  simp only [List.mem_cons, List.not_mem_nil, or_false] at state
  rcases state with e | e | e | e | e | e <;> simp [csenOwner, Cell.negotiating, e]

theorem csenOwner_field {site : Fin 8} (state : (s.cell c).state ∈ [CellState.idle, .preparing, .paused])
    (other : ¬(s.cell c).commonSite site) : csenOwner f (c, site) s = (s, .check .field 9) := by
  rw [← Cell.commonSite_iff, Bool.not_eq_true] at other
  simp only [List.mem_cons, List.not_mem_nil, or_false] at state
  rcases state with e | e | e <;> simp [csenOwner, Cell.negotiating, e, other]

theorem csenOwner_adds {site : Fin 8} (state : (s.cell c).state ∈ [CellState.idle, .preparing, .paused])
    (common : (s.cell c).commonSite site) :
    csenOwner f (c, site) s = ((s.setCell c { s.cell c with
      active := SiteSet.add (s.cell c).active site, failed := none }).serve (some hostPort) c, .good []) := by
  rw [← Cell.commonSite_iff] at common
  simp only [List.mem_cons, List.not_mem_nil, or_false] at state
  rcases state with e | e | e <;> simp [csenOwner, Cell.negotiating, e, common, State.onCell_eq]

end owners

theorem SiteSet.getLsbD_add (v : SiteSet) (site y : Fin 8) :
    (SiteSet.add v site).getLsbD y.val = true ↔ v.getLsbD y.val = true ∨ y = site := by
  rw [SiteSet.add, BitVec.getLsbD_or, SiteSet.bit_eq, Bool.or_eq_true, decide_eq_true_eq]

/-- Settles O38: one equation of its owner for each case of each request. -/
theorem redockModeAndSiteRequests : Obligations.RedockModeAndSiteRequests := by
  intro s c x
  refine ⟨fun asks => ⟨?_, ?_⟩, fun m asks => ⟨?_, ?_, ?_⟩, fun site asks => ⟨?_, ?_, ?_⟩⟩
  · exact fun state => exec_crdk asks fun f => crdkOwner_offers f state
  · exact fun state => exec_crdk asks fun f => crdkOwner_refuses f state
  · exact fun state => exec_cmod asks fun f => cmodOwner_refuses f state
  · exact fun idle other => exec_cmod asks fun f => cmodOwner_wrongMode f idle other
  · exact fun idle other => exec_cmod asks fun f => cmodOwner_changes f idle other
  · exact fun state => exec_csen asks fun f => csenOwner_refuses f state
  · exact fun state other => exec_csen asks fun f => csenOwner_field f state other
  · exact fun state common => ⟨_, SiteSet.getLsbD_add _ site,
      exec_csen asks fun f => csenOwner_adds f state common⟩

/-! ## CUND and CUNB (R52, R87) -/

section owners
variable {s : State} {c : CellNo} (f : Frame)

theorem cundOwner_refuses (state : (s.cell c).state ∈ [CellState.vacant, .preparing, .running, .stopping, .closing]) :
    cundOwner f c s = (s, .check .cellState (arg c.val)) := by
  simp only [List.mem_cons, List.not_mem_nil, or_false] at state
  rcases state with e | e | e | e | e <;> simp [cundOwner, Cell.negotiating, e]

theorem cundOwner_dissolves (state : (s.cell c).state ∈ [CellState.idle, .paused, .lost, .fault]) :
    cundOwner f c s = (s.undock (some hostPort) c, .good []) := by
  simp only [List.mem_cons, List.not_mem_nil, or_false] at state
  rcases state with e | e | e | e <;> simp [cundOwner, Cell.negotiating, e]

theorem cunbOwner_refuses
    (state : (s.cell c).state ∈ [CellState.vacant, .idle, .running, .stopping, .closing, .lost, .fault]) :
    cunbOwner f c s = (s, .check .cellState (arg c.val)) := by
  simp only [List.mem_cons, List.not_mem_nil, or_false] at state
  rcases state with e | e | e | e | e | e | e <;> simp [cunbOwner, Cell.negotiating, e]

theorem cunbOwner_unbinds {id : Id} (state : (s.cell c).state = .preparing ∨ (s.cell c).state = .paused)
    (bound : (s.cell c).bound = some id) :
    cunbOwner f c s =
      let freed := (s.setCell c { s.cell c with preparation := none }).unbind (some hostPort) c id
        fun y => { y with state := .idle }
      (freed, .good (be32 id ++ freed.lotStateOf id)) := by
  rcases state with e | e <;> simp [cunbOwner, Cell.negotiating, e, bound, State.onCell_eq]

end owners

/-- Two entries are changed one after the other, their ids kept. -/
theorem State.onEquip_two {s : State} {h t : Id} {i j : Position} {e g : Entry} {f : Entry → Entry}
    (keep : ∀ e, (f e).id = e.id) (first : s.find h = some (i, e)) (second : s.find t = some (j, g)) (two : i ≠ j) :
    (s.onEquip h f).onEquip t f = (s.setEntry i (some (f e))).setEntry j (some (f g)) := by
  obtain ⟨at_i, rfl⟩ := State.find_entry first
  have other : e.id ≠ t := by
    rintro rfl
    rw [first, Option.some.injEq, Prod.mk.injEq] at second
    exact two second.1
  rw [State.onEquip_of_find f first, State.onEquip_of_find f]
  rw [State.find_setEntry_ne at_i (keep e) other, second]

/-- The state in which the members of a dissolving cell have been told (R52). -/
def State.toldDissolved (s : State) (c : CellNo) (h t : Id) : State :=
  (((s.clearMembership (some h)).clearMembership (some t)).notifyEquip h (.ndis h c)).notifyEquip t (.ndis t c)

section undock
variable {s : State} {c : CellNo} {h t : Id} (src : Option Port) (handler : (s.cell c).handler = some h)
  (tester : (s.cell c).tester = some t)
include handler tester

theorem State.notifyMembers_cleared :
    ((s.clearMembership (some h)).clearMembership (some t)).notifyMembers c (fun id => .ndis id c)
      = s.toldDissolved c h t := by
  rw [State.notifyMembers, State.clearMembership_cell, State.clearMembership_cell, handler, tester]
  rfl

theorem State.undock_unbound (unbound : (s.cell c).bound = none) :
    s.undock src c = ((s.toldDissolved c h t).setCell c Cell.vacant).ncel c := by
  rw [State.undock, handler, tester, State.notifyMembers_cleared handler tester, unbound]
  rfl

theorem State.undock_bound {id : Id} (bound : (s.cell c).bound = some id) :
    s.undock src c = (s.toldDissolved c h t).unbind src c id fun _ => Cell.vacant := by
  rw [State.undock, handler, tester, State.notifyMembers_cleared handler tester, bound]

end undock

/-- Settles O37: the owner's equations, with the members' entries found. -/
theorem undockingAndUnbindingByHost : Obligations.UndockingAndUnbindingByHost := by
  intro s c x
  refine ⟨fun asks => ⟨?_, ?_⟩, fun asks => ⟨?_, ?_⟩⟩
  · exact fun state => exec_cund asks fun f => cundOwner_refuses f state
  · intro h t i j e f state handler tester at_h at_t two cleared told
    have told_eq : s.toldDissolved c h t = told := by
      rw [State.toldDissolved, State.clearMembership_some, State.clearMembership_some,
        State.onEquip_two (f := Entry.withMembership none) (fun _ => rfl) at_h at_t two]
      rfl
    refine ⟨fun unbound => exec_cund asks fun f => ?_, fun id bound => exec_cund asks fun f => ?_⟩
    · rw [cundOwner_dissolves f state, State.undock_unbound _ handler tester unbound, told_eq]
    · rw [cundOwner_dissolves f state, State.undock_bound _ handler tester bound, told_eq]
      rfl
  · exact fun state => exec_cunb asks fun f => cunbOwner_refuses f state
  · exact fun id state bound => exec_cunb asks fun f => cunbOwner_unbinds f state bound

end Sys2Proof.Machine
end

section
/-! CDCK (R37, R38, R186). -/

namespace Sys2Proof.Machine

-- one theorem at a time: many at once, each with a thread of its own, can exceed the memory limit
set_option Elab.async false

theorem PortUnit.startNext_service (u : PortUnit) : u.startNext.service = u.service := by
  obtain e | ⟨-, ⟨bytes, e⟩ | ⟨f, -, e⟩ | ⟨n, rest, -, e⟩⟩ := u.startNext_cases <;> rw [e]

/-- An answer changes its own port only. -/
theorem State.answer_port_ne (s : State) {p q : Port} (r : Option Req) (reply : Reply) (other : q ≠ p) :
    (s.answer p r reply).port q = s.port q := by
  rw [State.answer, State.onPort, State.setPort_port_ne _ _ other]

/-- A request that waits keeps its slot and gets no response (R7). -/
theorem State.answer_wait_service (s : State) (p : Port) (r : Option Req) :
    ((s.answer p r .wait).port p).service = (s.port p).service.map fun v => { v with progress := .waiting } := by
  rw [State.answer, State.onPort, State.setPort_port_same, PortUnit.answer, PortUnit.startNext_service]

theorem afterReattempt_waits {α : Type} {owner : Owner α} {s : State} (unconfigured : s.configState = .unconfigured)
    (f : Frame) (a : α) : afterReattempt owner f a s = ({ s with storeJob := some .reattempt }, .wait) :=
  if_pos unconfigured

/-! ## The members' entries (R37 steps 2 to 4) -/

section members
variable {s : State} {id : Id} {kind : EquipKind}

theorem State.memberFault_absent (absent : ∀ e, s.equip id = some e → e.state = .stale) :
    s.memberFault id kind = some (.check .unknownEquipment id) := by
  unfold State.memberFault
  split
  · rfl
  · rename_i e known
    rw [if_pos (absent e known)]

theorem State.memberFault_otherKind {e : Entry} (known : s.equip id = some e) (present : e.state = .present)
    (other : e.ability.kind ≠ kind) : s.memberFault id kind = some (.check .kindMismatch id) := by
  simp [State.memberFault, known, present, other]

theorem State.memberFault_none {e : Entry} (known : s.equip id = some e) (present : e.state = .present)
    (same : e.ability.kind = kind) : s.memberFault id kind = none := by
  simp [State.memberFault, known, present, same]

theorem State.memberTaken_taken {e : Entry} (known : s.equip id = some e) (taken : e.membership ≠ none) :
    s.memberTaken id = some (.check .equipmentInUse id) := by
  have taken : e.membership.isSome = true := Option.isSome_iff_ne_none.mpr taken
  simp [State.memberTaken, known, taken]

theorem State.memberTaken_free {e : Entry} (known : s.equip id = some e) (free : e.membership = none) :
    s.memberTaken id = none := by
  simp [State.memberTaken, known, free]

end members

/-! ## The owner of CDCK -/

section owner
variable {s : State} {c : CellNo} {h t : Id} (f : Frame)

theorem cdckConfigured_inUse (vacant : (s.cell c).state ≠ .vacant) (offer : (s.cell c).state ≠ .offer)
    (confirm : (s.cell c).state ≠ .confirm) : cdckConfigured f (c, h, t) s = (s, .check .cellState (arg c.val)) := by
  simp [cdckConfigured, Cell.negotiating, vacant, offer, confirm]

theorem cdckConfigured_refuses (vacant : (s.cell c).state = .vacant) {reply : Reply}
    (refused : ((s.memberFault h .handler).or (s.memberFault t .tester)).or ((s.memberTaken h).or (s.memberTaken t))
      = some reply) : cdckConfigured f (c, h, t) s = (s, reply) := by
  simp [cdckConfigured, Cell.negotiating, vacant, refused]

theorem cdckConfigured_docks (vacant : (s.cell c).state = .vacant)
    (passed : ((s.memberFault h .handler).or (s.memberFault t .tester)).or ((s.memberTaken h).or (s.memberTaken t))
      = none) : cdckConfigured f (c, h, t) s = (s.dock c h t, .good []) := by
  simp [cdckConfigured, Cell.negotiating, vacant, passed]

end owner

/-- Two found entries become the members of a cell, which enters OFFER. -/
theorem State.dock_eq {s : State} {c : CellNo} {h t : Id} {i j : Position} {e f : Entry}
    (handler : s.find h = some (i, e)) (tester : s.find t = some (j, f)) (two : i ≠ j) :
    s.dock c h t = ((((s.setEntry i (some { e with membership := some c })).setEntry j
      (some { f with membership := some c })).setCell c
        { s.cell c with handler := some h, tester := some t, mode := .maintenance }).enterOffer c) := by
  rw [State.dock, State.onEquip_two (f := fun e => { e with membership := some c }) (fun _ => rfl) handler tester two,
    State.onCell_eq]
  rfl

/-- Two free, PRESENT entries of the two kinds become the members of a VACANT cell, which enters OFFER (R37). -/
theorem cdckConfigured_accepts {s : State} {c : CellNo} {h t : Id} {i j : Position} {e f : Entry} (frame : Frame)
    (vacant : (s.cell c).state = .vacant) (handler : s.find h = some (i, e)) (tester : s.find t = some (j, f))
    (present : e.state = .present) (present' : f.state = .present) (kind : e.ability.kind = .handler)
    (kind' : f.ability.kind = .tester) (free : e.membership = none) (free' : f.membership = none) :
    cdckConfigured frame (c, h, t) s =
      (((((s.setEntry i (some { e with membership := some c })).setEntry j
        (some { f with membership := some c })).setCell c
          { s.cell c with handler := some h, tester := some t, mode := .maintenance }).enterOffer c), .good []) := by
  have known := State.equip_of_find handler
  have known' := State.equip_of_find tester
  have two : i ≠ j := by
    rintro rfl
    have same := (State.find_entry handler).1.symm.trans (State.find_entry tester).1
    rw [Option.some.injEq] at same
    rw [same, kind'] at kind
    cases kind
  rw [← State.dock_eq handler tester two]
  refine cdckConfigured_docks frame vacant ?_
  rw [State.memberFault_none known present kind, State.memberFault_none known' present' kind',
    State.memberTaken_free known free, State.memberTaken_free known' free']
  rfl

/-- Settles O36: each check of the owner by its own lemma, in the order in which the owner makes them. -/
theorem dockingMakesMembersAndOffers : Obligations.DockingMakesMembersAndOffers := by
  intro s c h t handler tester asks answers known absent
  refine ⟨fun unconfigured => ?_, fun configured => ⟨?_, fun vacant => ⟨?_, ?_, ?_, ?_, ?_⟩⟩⟩
  · have waits := exec_carries (i := .cdck 0) (owner := afterReattempt cdckConfigured) rfl asks rfl
      (readCdck_bytes c handler tester) fun f => afterReattempt_waits unconfigured f _
    exact ⟨_, waits, rfl, fun p other => State.answer_port_ne _ _ _ other, State.answer_wait_service _ 0 _⟩
  all_goals
    have carried {u : State} {reply : Reply} := exec_cdck (u := u) (reply := reply) handler tester asks configured
  · rintro _ rfl vacant offer confirm
    exact carried fun f => cdckConfigured_inUse f vacant offer confirm
  · exact fun absent => carried fun f => cdckConfigured_refuses f vacant (by rw [State.memberFault_absent absent]; rfl)
  · rintro e ⟨known, present, kind⟩
    have fault := State.memberFault_otherKind (kind := .handler) known present (by simp [kind])
    exact carried fun f => cdckConfigured_refuses f vacant (by rw [fault]; rfl)
  · rintro e ⟨known, present, kind⟩ absent
    have passes := State.memberFault_none known present kind
    exact carried fun f => cdckConfigured_refuses f vacant (by rw [passes, State.memberFault_absent absent]; rfl)
  · rintro e f ⟨known, present, kind⟩ ⟨known', present', kind'⟩
    have passes := State.memberFault_none known present kind
    have fault := State.memberFault_otherKind (kind := .tester) known' present' (by simp [kind'])
    exact carried fun f => cdckConfigured_refuses f vacant (by rw [passes, fault]; rfl)
  · rintro e f i j ⟨known, present, kind⟩ ⟨known', present', kind'⟩ at_h at_t
    have passes := State.memberFault_none known present kind
    have passes' := State.memberFault_none known' present' kind'
    refine ⟨fun taken => ?_, fun free taken => ?_, fun free free' => ?_⟩
    · have fault := State.memberTaken_taken known taken
      exact carried fun f => cdckConfigured_refuses f vacant (by rw [passes, passes', fault]; rfl)
    · have fault := State.memberTaken_taken known' taken
      have untaken := State.memberTaken_free known free
      exact carried fun f => cdckConfigured_refuses f vacant (by rw [passes, passes', untaken, fault]; rfl)
    · exact carried fun frame =>
        cdckConfigured_accepts frame vacant at_h at_t present present' kind kind' free free'

end Sys2Proof.Machine
end

section
/-! Member disturbances (R48 to R50). -/

namespace Sys2Proof.Machine

-- one theorem at a time: many at once, each with a thread of its own, can exceed the memory limit
set_option Elab.async false

/-- A cell whose work in hand a disturbance has ended (R48). -/
def Cell.ended (x : Cell) : Cell := { x with run := none, preparation := none }

section disturb
variable {s : State} {c : CellNo} {id : Id}

theorem State.moveCell_bound {f : Cell → Cell} (keeps : ∀ x, (f x).bound = x.bound) :
    ((s.moveCell c f).cell c).bound = (s.cell c).bound := by
  rw [State.moveCell_eq, State.ncel_cell, State.setCell_cell_same, keeps]

theorem State.query_cell (m : Option Id) (d : CellNo) : (s.query c m).cell d = s.cell d := by
  rw [State.query, State.onlyPorts_notifyMember]
  rfl

theorem State.enterOffer_bound (handler tester : Bool) :
    ((s.enterOffer c handler tester).cell c).bound = (s.cell c).bound := by
  have asked (u : State) (reports : Bool) (m : Option Id) :
      (if reports = true then u else u.query c m).cell c = u.cell c := by
    split
    · rfl
    · exact State.query_cell m c
  unfold State.enterOffer
  dsimp only
  rw [asked, asked]
  exact State.moveCell_bound fun _ => rfl

/-- A disturbance moves the cell and leaves its lot bound (R48). -/
theorem State.disturbMove_bound (d : Disturbance) : ((s.disturbMove c d).cell c).bound = (s.cell c).bound := by
  cases d with
  | stale => exact State.moveCell_bound fun _ => rfl
  | reannounce =>
    unfold State.disturbMove
    dsimp only
    split
    · exact State.moveCell_bound fun _ => rfl
    · exact State.enterOffer_bound _ _

theorem State.disturb_vacant (vacant : (s.cell c).state = .vacant) (src : Option Port) (d : Disturbance) :
    s.disturb src c d = s := if_pos vacant

theorem State.disturb_unbound (used : (s.cell c).state ≠ .vacant) (unbound : (s.cell c).bound = none)
    (src : Option Port) (d : Disturbance) : s.disturb src c d = (s.setCell c (s.cell c).ended).disturbMove c d := by
  have at_c : (((s.setCell c (s.cell c).ended).disturbMove c d).cell c).bound = none := by
    rw [State.disturbMove_bound, State.setCell_cell_same]
    exact unbound
  unfold State.disturb
  rw [if_neg used]
  dsimp only
  split
  · rename_i id bound
    cases bound.symm.trans at_c
  · rfl

theorem State.disturb_bound (used : (s.cell c).state ≠ .vacant) (bound : (s.cell c).bound = some id)
    (src : Option Port) (d : Disturbance) :
    s.disturb src c d = ((s.setCell c (s.cell c).ended).disturbMove c d).placeHold src id .cell c.val d.detail := by
  have at_c : (((s.setCell c (s.cell c).ended).disturbMove c d).cell c).bound = some id := by
    rw [State.disturbMove_bound, State.setCell_cell_same]
    exact bound
  unfold State.disturb
  rw [if_neg used]
  dsimp only
  split
  · rename_i k named
    obtain rfl := Option.some.inj (named.symm.trans at_c)
    rfl
  · rename_i unbound
    cases unbound.symm.trans at_c

theorem State.enterLost_ended : (s.setCell c (s.cell c).ended).enterLost c =
    (s.setCell c { (s.cell c).ended with state := .lost, negotiation := none, fault := none }).ncel c := by
  rw [State.enterLost, State.moveCell_eq, State.setCell_cell_same, State.setCell_setCell]

/-- The end of the cell's work leaves its members. -/
theorem State.membersPresent_ended : (s.setCell c (s.cell c).ended).membersPresent c = s.membersPresent c := by
  rw [State.membersPresent, State.setCell_cell_same]
  rfl

theorem State.disturbMove_reannounce : (s.setCell c (s.cell c).ended).disturbMove c .reannounce =
    if (s.cell c).state = .lost ∧ s.membersPresent c = false then (s.setCell c (s.cell c).ended).enterLost c
    else (s.setCell c (s.cell c).ended).enterOffer c := by
  simp only [State.disturbMove, State.membersPresent_ended, State.setCell_cell_same, Bool.not_eq_true']
  rfl

end disturb

/-- Settles O22: where the cell goes is what `State.disturbMove` does to the cell whose work has ended; its lot stays
bound, and is held after that. -/
theorem disturbanceEndsWorkAndHoldsLot : Obligations.DisturbanceEndsWorkAndHoldsLot := by
  intro s src c
  refine ⟨fun vacant d => State.disturb_vacant vacant src d, ?_⟩
  intro used emptied lost offered
  have to_lost : (s.setCell c (s.cell c).ended).enterLost c = lost := State.enterLost_ended
  have outcome (d : Disturbance) {moved : State} (move : (s.setCell c (s.cell c).ended).disturbMove c d = moved) :
      s.disturb src c d = match (s.cell c).bound with
        | some id => moved.placeHold src id .cell c.val d.detail
        | none => moved := by
    cases bound : (s.cell c).bound with
    | none => rw [State.disturb_unbound used bound, move]
    | some id => rw [State.disturb_bound used bound, move]
  refine ⟨outcome .stale to_lost, fun away => outcome .reannounce ?_, fun lost absent => outcome .reannounce ?_⟩
  · rw [State.disturbMove_reannounce, if_neg (by rintro ⟨lost, absent⟩; simp [lost, absent] at away)]
    rfl
  · rw [State.disturbMove_reannounce, if_pos ⟨lost, absent⟩, to_lost]

end Sys2Proof.Machine
end

section
/-! The end of a soak and the four deadline expiries (R43, R94, R97, R99, R100, R102, R107, R109, R110). -/

namespace Sys2Proof.Machine

-- one theorem at a time: many at once, each with a thread of its own, can exceed the memory limit
set_option Elab.async false

/-! ## Serving a cell that is not IDLE (R80, R82) -/

theorem State.serve_of_busy {s : State} {c : CellNo} (busy : (s.cell c).state ≠ .idle) (src : Option Port) :
    s.serve src c = s := by
  have nothing : s.choice c = none := by
    refine Option.eq_none_iff_forall_not_mem.mpr fun id choice => busy ?_
    obtain ⟨w, -, -, bindable⟩ := State.choice_bindable choice
    obtain ⟨l, -, eligible, -⟩ := State.bindable_iff.mp bindable
    exact State.eligible_idle eligible
  unfold State.serve
  cases s.queue.length with
  | zero => rfl
  | succ n => rw [State.serveUpTo, nothing]

/-! ## Runs that open, and what becomes of a cell that goes on (R102, R109) -/

section goOn
variable {s : State} {c : CellNo} {l : Lot} (src : Option Port)

theorem State.OnlyPorts.cell {t : State} (h : s.OnlyPorts t) (d : CellNo) : t.cell d = s.cell d := by
  rw [h]
  rfl

/-- A cell on which a run was to open is RUNNING or PAUSED (R102, R103). -/
theorem State.openRun_busy : ((s.openRun src c l).cell c).state ≠ .idle := by
  unfold State.openRun
  dsimp only
  split
  · rw [State.moveCell_eq, State.ncel_cell, State.setCell_cell_same]
    simp
  · rw [(State.onlyPorts_notifyMembers _ c _).cell, State.moveCell_eq, State.ncel_cell, State.setCell_cell_same]
    simp

variable (bound : s.boundLot c = some l)
include bound

theorem State.goOn_works (work : l.hasWork = true) : s.goOn src c = s.openRun src c l := by
  simp [State.goOn, bound, work]

theorem State.goOn_retests (done : l.hasWork = false) (retests : l.retests (s.product l).maxRetests = true) :
    s.goOn src c = (s.onLot l.id fun m => m.completePass (s.product l).maxRetests).openRun src c
      (l.completePass (s.product l).maxRetests) := by
  simp [State.goOn, bound, done, retests]

theorem State.goOn_tests (done : l.hasWork = false) (closes : l.retests (s.product l).maxRetests = false) :
    s.goOn src c = (s.onLot l.id fun m => m.completePass (s.product l).maxRetests).lotTested src c l.id := by
  simp [State.goOn, bound, done, closes]

end goOn

/-- A cell that keeps its lot keeps it in sight. -/
theorem State.boundLot_setCell {s : State} {c : CellNo} {y : Cell} (same : y.bound = (s.cell c).bound) :
    (s.setCell c y).boundLot c = s.boundLot c := by
  rw [State.boundLot, State.setCell_cell_same, same]
  rfl

/-! ## The completion of a preparation (R94) -/

section preparation
variable {s : State} {c : CellNo} {q : Preparation} {l : Lot} (src : Option Port)
  (preparation : (s.cell c).preparation = some q)
include preparation

theorem State.testPreparation_waits (waits : q.complete = false) : s.testPreparation src c = s := by
  unfold State.testPreparation
  rw [preparation]
  simp [waits]

variable (complete : q.complete = true) (bound : s.boundLot c = some l)
include complete bound

theorem State.testPreparation_held (held : l.unheld = false) : s.testPreparation src c =
    (s.setCell c { s.cell c with preparation := none }).moveCell c fun x => { x with state := .paused } := by
  obtain ⟨id, named, known⟩ := Option.bind_eq_some_iff.mp bound
  have held : s.lotUnheld id = false := (State.lotUnheld_eq known).trans held
  simp [State.testPreparation, preparation, complete, State.onCell_eq, named, held]

theorem State.testPreparation_unheld (unheld : l.unheld = true) : s.testPreparation src c =
    (s.setCell c { s.cell c with preparation := none }).goOn src c := by
  obtain ⟨id, named, known⟩ := Option.bind_eq_some_iff.mp bound
  have unheld : s.lotUnheld id = true := (State.lotUnheld_eq known).trans unheld
  simp [State.testPreparation, preparation, complete, State.onCell_eq, named, unheld]

end preparation

/-! ## A soak that has come to its end (R99) -/

section soak
variable {s : State} {c : CellNo} {q : Preparation} {l : Lot} (preparing : (s.cell c).state = .preparing)
  (preparation : (s.cell c).preparation = some q) (soaking : q.thermal = .soaking) (bound : s.boundLot c = some l)
  (soaked : (s.product l).soakTime ≤ (s.cell c).thermal.soak)
include preparing preparation soaking bound soaked

theorem State.endSoak_eq : s.endSoak c =
    ((s.setCell c { s.cell c with preparation := some { q with thermal := .done } }).testPreparation none c).serve none
      c := by
  rw [State.endSoak, if_pos (State.soakOver_iff.mpr ⟨preparing, q, l, preparation, soaking, bound, soaked⟩),
    State.onCell_eq, preparation]
  rfl

/-- The program is still awaited. -/
theorem State.endSoak_pending (pending : q.program = .pending) : s.endSoak c =
    s.setCell c { s.cell c with preparation := some { q with thermal := .done } } := by
  rw [State.endSoak_eq preparing preparation soaking bound soaked,
    State.testPreparation_waits none (q := { q with thermal := .done }) (by simp)
      (by simp [Preparation.complete, pending])]
  exact State.serve_of_busy (by simp [preparing]) none

variable (loaded : q.program ≠ .pending)
include loaded

theorem State.endSoak_held (held : l.unheld = false) : s.endSoak c =
    (s.setCell c { s.cell c with preparation := none }).moveCell c fun x => { x with state := .paused } := by
  have bound' := (State.boundLot_setCell (y := { s.cell c with preparation := some { q with thermal := .done } })
    rfl).trans bound
  rw [State.endSoak_eq preparing preparation soaking bound soaked,
    State.testPreparation_held none (q := { q with thermal := .done }) (by simp)
      (by simp [Preparation.complete, loaded]) bound' held, State.setCell_cell_same, State.setCell_setCell]
  refine State.serve_of_busy ?_ none
  rw [State.moveCell_eq, State.ncel_cell, State.setCell_cell_same]
  simp

theorem State.endSoak_unheld (unheld : l.unheld = true) : s.endSoak c =
    ((s.setCell c { s.cell c with preparation := none }).goOn none c).serve none c := by
  have bound' := (State.boundLot_setCell (y := { s.cell c with preparation := some { q with thermal := .done } })
    rfl).trans bound
  rw [State.endSoak_eq preparing preparation soaking bound soaked,
    State.testPreparation_unheld none (q := { q with thermal := .done }) (by simp)
      (by simp [Preparation.complete, loaded]) bound' unheld, State.setCell_cell_same, State.setCell_setCell]

end soak

/-! ## The failures of a preparation and the end of an owed result (R97, R100, R107) -/

section failures
variable {s : State} {c : CellNo} {l : Lot} (src : Option Port)

theorem State.loadFailed_eq (bound : s.boundLot c = some l) : s.loadFailed src c =
    (s.setCell c { s.cell c with failed := some (s.product l).program, preparation := none }).unbind src c l.id
      fun x => { x with state := .idle } := by
  rw [State.loadFailed, bound]
  rfl

theorem State.settleFailed_eq (bound : s.boundLot c = some l) : s.settleFailed src c =
    (s.setCell c { s.cell c with thermal := ⟨none, false, 0⟩, preparation := none }).unbind src c l.id
      fun x => { x with state := .idle, mode := .maintenance } := by
  rw [State.settleFailed, bound]
  rfl

theorem State.closeExpired_eq {r : Run} {count : Nat} {reason : EndReason} (closing : (s.cell c).state = .closing)
    (run : (s.cell c).run = some r) (handlerCount : r.handlerCount = some count)
    (endReason : r.endReason = some reason) :
    s.closeExpired src c = s.closeRun src c (some (2, count - r.binned)) reason := by
  simp [State.closeExpired, closing, run, handlerCount, endReason, shortRunArg]

end failures

/-- Settles O24: the one listed event is taken, its ground holds, and its rule acts; only a cell that has become IDLE is
then served anything. -/
theorem soakEndAndDeadlineExpiriesAct : Obligations.SoakEndAndDeadlineExpiriesAct := by
  refine ⟨?_, ?_, ?_, ?_, ?_⟩
  · intro s c q l listed preparing preparation soaking bound soaked soaked' complete max passed
    have taken : exec (.soakEnd c) s = .next (({ s with due := [] } : State).endSoak c) := by
      show Host.Outcome.next (s.takeListed (.soak c)) = _
      rw [State.takeListed_one listed]
      rfl
    have bound' : complete.boundLot c = some l := by
      rw [State.boundLot, State.setCell_cell_same]
      exact bound
    have goesOn (loaded : q.program ≠ .pending) (unheld : l.unheld = true) :
        exec (.soakEnd c) s = .next ((complete.goOn none c).serve none c) := by
      rw [taken]
      exact congrArg _ (State.endSoak_unheld (s := { s with due := [] }) preparing preparation soaking bound soaked
        loaded unheld)
    refine ⟨fun pending => ?_, fun loaded held => ?_, fun loaded unheld work => ?_,
      fun loaded unheld done retests => ?_, fun loaded unheld done closes => ?_⟩
    · rw [taken]
      exact congrArg _ (State.endSoak_pending (s := { s with due := [] }) preparing preparation soaking bound soaked
        pending)
    · rw [taken]
      exact congrArg _ (State.endSoak_held (s := { s with due := [] }) preparing preparation soaking bound soaked loaded
        held)
    · rw [goesOn loaded unheld, State.goOn_works none bound' work, State.serve_of_busy (State.openRun_busy none)]
    · rw [goesOn loaded unheld, State.goOn_retests none bound' done retests,
        State.serve_of_busy (State.openRun_busy none)]
      rfl
    · rw [goesOn loaded unheld, State.goOn_tests none bound' done closes]
      rfl
  · intro s c n listed state negotiation deadline
    have expired := Cell.negotiationExpired_iff.mpr ⟨state, n, negotiation, deadline⟩
    show Host.Outcome.next (s.takeListed (.negotiation c)) = _
    rw [State.takeListed_one listed]
    exact congrArg _ (if_pos expired)
  · intro s c q l listed state preparation deadline bound
    have expired := Cell.loadExpired_iff.mpr ⟨state, q, preparation, deadline⟩
    show Host.Outcome.next (s.takeListed (.load c)) = _
    rw [State.takeListed_one listed]
    exact congrArg _ ((if_pos expired).trans (State.loadFailed_eq (s := { s with due := [] }) none bound))
  · intro s c q l listed state preparation deadline bound
    have expired := Cell.settleExpired_iff.mpr ⟨state, q, preparation, deadline⟩
    show Host.Outcome.next (s.takeListed (.settle c)) = _
    rw [State.takeListed_one listed]
    exact congrArg _ ((if_pos expired).trans (State.settleFailed_eq (s := { s with due := [] }) none bound))
  · intro s c r count reason listed state run deadline handlerCount endReason
    have expired := Cell.closeExpired_iff.mpr ⟨state, r, run, deadline⟩
    show Host.Outcome.next (s.takeListed (.close c)) = _
    rw [State.takeListed_one listed]
    exact congrArg _ ((if_pos expired).trans (State.closeExpired_eq (s := { s with due := [] }) none state run
      handlerCount endReason))

end Sys2Proof.Machine
end

section
/-! The end of a re-attempt of the store load (R186). -/

namespace Sys2Proof.Machine

-- one theorem at a time: many at once, each with a thread of its own, can exceed the memory limit
set_option Elab.async false

/-! ## Gates with nothing queued and nothing shipped (R84, R163, R166) -/

section empty
variable {s : State}

theorem State.serve_of_empty (empty : s.queue = []) (src : Option Port) (c : CellNo) : s.serve src c = s := by
  rw [State.serve, empty]
  rfl

theorem State.serveIdle_of_empty (empty : s.queue = []) (src : Option Port) : s.serveIdle src = s := by
  have one (cells : List CellNo) : cells.foldl (fun s c => s.serve src c) s = s := by
    induction cells with
    | nil => rfl
    | cons c cells ih => rw [List.foldl_cons, State.serve_of_empty empty, ih]
  exact one _

theorem State.offerAll_of_empty (empty : s.shipments = []) (o : OfferState) : s.offerAll o = s := by
  rw [State.offerAll, empty, List.map_nil, ← empty]

theorem State.attentionTest_of_empty (empty : s.shipments = []) (threshold : 1 ≤ s.tables.parameters.attention) :
    s.attentionTest = s := by
  have few : ¬(s.armed = true ∧ s.tables.parameters.attention ≤ s.offeredCount) := by
    rintro ⟨-, enough⟩
    rw [State.offeredCount, empty] at enough
    simp at enough
    omega
  exact if_neg few

theorem State.deliverDispatch_of_empty (empty : s.queue = []) (src : Option Port) (was now : GateState) :
    s.deliverDispatch src was now = s := by
  rw [State.deliverDispatch, State.serveIdle_of_empty empty, ite_self]

theorem State.deliverRelease_of_empty (empty : s.shipments = []) (threshold : 1 ≤ s.tables.parameters.attention)
    (was now : GateState) : s.deliverRelease was now = s := by
  rw [State.deliverRelease, State.offerAll_of_empty empty, State.offerAll_of_empty empty,
    State.attentionTest_of_empty empty threshold, ite_self, ite_self]

/-- With nothing to serve and nothing to offer the gates are recorded, and nothing else happens. -/
theorem State.evaluateGates_of_empty (queue : s.queue = []) (shipments : s.shipments = [])
    (threshold : 1 ≤ s.tables.parameters.attention) (src : Option Port) : s.evaluateGates src =
      { s with clock := { s.clock with
          dispatchGate := gateAt s.tables.windows.toList .dispatch s.clock.minute
          releaseGate := gateAt s.tables.windows.toList .release s.clock.minute } } := by
  have delivered (u : State) (queue : u.queue = []) (shipments : u.shipments = [])
      (threshold : 1 ≤ u.tables.parameters.attention) (was now was' now' : GateState) :
      (u.deliverDispatch src was now).deliverRelease was' now' = u := by
    rw [State.deliverDispatch_of_empty queue, State.deliverRelease_of_empty shipments threshold]
  exact delivered _ (by exact queue) (by exact shipments) (by exact threshold) _ _ _ _

theorem State.clampMinute_eq : s.clampMinute = { s with clock := { s.clock with
    minute := if s.tables.parameters.period < s.clock.minute then 0 else s.clock.minute } } := by
  unfold State.clampMinute
  split <;> rfl

end empty

/-! ## The re-attempt -/

theorem Store.loads_eq (st : Store) (reply : StoreReply) :
    st.loads reply = (decide (reply = .answers) && st.marker && st.crcGood) := by
  cases reply <;> simp [Store.loads]

/-- The part once the store's tables are installed (R186). -/
def State.reinstalled (s : State) : State :=
  { s with storeJob := none, tables := s.store.tables, configState := .configured }.periodChanged (some hostPort)

section reattempt
variable {s : State} {v : Service} {reply : StoreReply} (quiet : s.Quiet) (job : s.storeJob = some .reattempt)
  (service : (s.port 0).service = some v)
include quiet job service

theorem exec_reattempt : exec (.storeLoadReattempt reply) s = .next (s.endReattempt reply v.frame) := by
  show execStoreLoadReattempt reply s = _
  have service : (s.port hostPort).service = some v := service
  rw [execStoreLoadReattempt, State.settle_of_quiet quiet, job, service]

theorem exec_reattempt_bad (bad : s.store.loads reply = false) : exec (.storeLoadReattempt reply) s =
    .next (({ s with storeJob := none } : State).answer 0 (Req.ofCode v.frame.code) (.check .notConfigured 0)) := by
  rw [exec_reattempt quiet job service, State.endReattempt]
  dsimp only
  rw [bad]
  rfl

theorem exec_reattempt_good (good : s.store.loads reply = true) :
    exec (.storeLoadReattempt reply) s = .next (s.reinstalled.resumeWaiting v.frame) := by
  rw [exec_reattempt quiet job service, State.endReattempt]
  dsimp only
  rw [good]
  rfl

end reattempt

/-- The waiting LENT is its owner's. -/
theorem State.resumeWaiting_lent {s : State} {f : Frame} {a : LentFields} (code : Req.ofCode f.code = some .lent)
    (reads : readLent f.payload = .ok a) : s.resumeWaiting f =
      (lentConfigured f a s).1.answer 0 (some .lent) (lentConfigured f a s).2 := by
  simp only [State.resumeWaiting, code, State.checkFields, reads]
  rfl

/-- The waiting CDCK is its owner's. -/
theorem State.resumeWaiting_cdck {s : State} {f : Frame} {a : CellNo × Id × Id} (code : Req.ofCode f.code = some .cdck)
    (reads : readCdck f.payload = .ok a) : s.resumeWaiting f =
      (cdckConfigured f a s).1.answer 0 (some .cdck) (cdckConfigured f a s).2 := by
  simp only [State.resumeWaiting, code, State.checkFields, reads]
  rfl

/-- With nothing queued and nothing shipped the installed tables bring the minute and the gates with them. -/
theorem State.reinstalled_of_empty {s : State} (queue : s.queue = []) (shipments : s.shipments = [])
    (threshold : 1 ≤ s.store.tables.parameters.attention) :
    s.reinstalled =
      let m := if s.store.tables.parameters.period < s.clock.minute then 0 else s.clock.minute
      { s with
        storeJob := none
        tables := s.store.tables
        configState := .configured
        clock := { s.clock with
          minute := m
          dispatchGate := gateAt s.store.tables.windows.toList .dispatch m
          releaseGate := gateAt s.store.tables.windows.toList .release m } } := by
  rw [State.reinstalled, State.periodChanged, State.clampMinute_eq]
  exact State.evaluateGates_of_empty (by exact queue) (by exact shipments) (by exact threshold) _

theorem lentConfigured_undefined {s : State} {a : LentFields} (f : Frame)
    (undefined : (s.tables.products[a.product]).defined = false) : lentConfigured f a s = (s, .check .field 12) := by
  have refused : (!(s.tables.products[a.product]).defined) = true := by rw [undefined]; rfl
  exact if_pos refused

/-- Settles O6: the re-attempt refuses, or installs and hands the waiting request to its owner. -/
theorem reattemptInstallsOrRefuses : Obligations.ReattemptInstallsOrRefuses := by
  intro reply s v quiet job service good
  have loads : s.store.loads reply = good := s.store.loads_eq reply
  refine ⟨fun bad => ?_, ?_⟩
  · have service' : (({ s with storeJob := none } : State).port 0).service = some v := service
    obtain ⟨records, others, -⟩ := onlyAnswered_answer service' (Req.ofCode v.frame.code)
      (reply := .check .notConfigured 0) (by simp)
    exact ⟨_, exec_reattempt_bad quiet job service (loads.trans bad), records, others,
      answeredCheck_answer service' _ _ _⟩
  · intro holds queue shipments threshold m installed
    have runs := exec_reattempt_good quiet job service (loads.trans holds)
    rw [show s.reinstalled = installed from State.reinstalled_of_empty queue shipments threshold] at runs
    refine ⟨fun a code reads undefined => ?_, ?_, fun c h t code reads vacant absent => ?_, ?_, ?_⟩
    · rw [runs, State.resumeWaiting_lent code reads, lentConfigured_undefined (s := installed) _ undefined]
    · rintro a _ code reads rfl
      rw [runs, State.resumeWaiting_lent code reads]
    · have fault : installed.memberFault h .handler = some (.check .unknownEquipment h) :=
        State.memberFault_absent (s := s) (by simp [absent])
      rw [runs, State.resumeWaiting_cdck code reads,
        cdckConfigured_refuses (s := installed) _ vacant (by rw [fault]; rfl)]
    · rintro a _ code reads rfl
      rw [runs, State.resumeWaiting_cdck code reads]
    · intro c h t e f i j code reads vacant handler tester present present' kind kind' free free'
      rw [runs, State.resumeWaiting_cdck code reads, cdckConfigured_accepts (s := installed) _ vacant handler tester
        present present' kind kind' free free']
      rfl

end Sys2Proof.Machine
end

section
/-! A lot's account (R56, R59): what a pass that ends, a unit that is counted and a lot that enters make of it. -/

namespace Sys2Proof.Machine

-- one theorem at a time: many at once, each with a thread of its own, can exceed the memory limit
set_option Elab.async false

/-! ## Sums over the bins -/

theorem Bins.total_eq_sum (v : Bins) : v.total = ∑ b : Fin 16, v[b] := by
  have same : v = Vector.ofFn fun b : Fin 16 => v[b] := by
    ext i h
    simp
  rw [Bins.total]
  conv_lhs => rw [same]
  rw [Vector.toList_ofFn, List.sum_ofFn]

@[simp] theorem Bins.total_zero : Bins.zero.total = 0 := by decide

@[simp] theorem Bins.total_add (v w : Bins) : (v.add w).total = v.total + w.total := by
  simp [Bins.total_eq_sum, Bins.add, Finset.sum_add_distrib]

theorem Bins.total_set (v : Bins) (b : Fin 16) (n : Nat) : Bins.total (v.set b n) + v[b] = v.total + n := by
  have rest : ∑ a ∈ Finset.univ.erase b, (v.set b n)[a] = ∑ a ∈ Finset.univ.erase b, v[a] := by
    refine Finset.sum_congr rfl fun a mem => ?_
    have other : b.val ≠ a.val := fun e => Finset.ne_of_mem_erase mem (Fin.ext e.symm)
    simp [Vector.getElem_set_ne, other]
  rw [Bins.total_eq_sum, Bins.total_eq_sum, ← Finset.add_sum_erase _ _ (Finset.mem_univ b),
    ← Finset.add_sum_erase _ _ (Finset.mem_univ b), rest]
  simp
  omega

@[simp] theorem Bins.total_inc (v : Bins) (b : Fin 16) : (v.inc b).total = v.total + 1 := by
  have := v.total_set b (v[b] + 1)
  rw [Bins.inc]
  omega

theorem Bins.total_dec (v : Bins) (b : Fin 16) (drawn : 0 < v[b]) : (v.dec b).total + 1 = v.total := by
  have := v.total_set b (v[b] - 1)
  rw [Bins.dec]
  omega

theorem Bins.isZero_iff_total {v : Bins} : v.isZero = true ↔ v.total = 0 := by
  rw [Bins.isZero, Bins.total, List.sum_eq_zero_iff, List.all_eq_true]
  simp only [beq_iff_eq]

theorem Bins.isZero_iff {v : Bins} : v.isZero = true ↔ ∀ b : Fin 16, v[b] = 0 := by
  rw [Bins.isZero_iff_total, Bins.total_eq_sum, Finset.sum_eq_zero_iff]
  simp

/-! ## Accounts -/

/-- A lot's units are all accounted for, and none of them waits in a pool (R59). -/
structure Lot.Closed (l : Lot) : Prop where
  now   : l.poolNow.total = 0
  next  : l.poolNext.total = 0
  ended : l.tested + l.lost = l.started

/-- The lot is in one of the states that follow test (R59). -/
def LotState.PastTest (x : LotState) : Prop := x = .tested ∨ x = .sampling ∨ x = .accepted ∨ x = .released

/-- No unit is expected any more: pass 0 has seen them all, or is over (R67, R102). -/
def Lot.PassOver (l : Lot) : Prop := l.pass = 0 → l.started ≤ l.tested + l.lost

/-- A lot that has no work left for its pass expects no unit (R102). -/
theorem Lot.passOver_of_idle {l : Lot} (idle : l.hasWork = false) : l.PassOver := fun first => by
  simpa [Lot.hasWork, first] using idle

/-- The units declared lost are expected no more (R67). -/
theorem Lot.passOver_declareShort (l : Lot) : l.declareShort.PassOver := fun _ => by
  simp only [Lot.declareShort]
  omega

/-- What a lot's account is read from. -/
structure Account where
  pass     : Nat
  started  : Nat
  tested   : Nat
  lost     : Nat
  final    : Bins
  poolNow  : Bins
  poolNext : Bins

def Lot.account (l : Lot) : Account := ⟨l.pass, l.started, l.tested, l.lost, l.final, l.poolNow, l.poolNext⟩

namespace Lot.Sound

variable {l m : Lot}

theorem isClosed (h : l.Sound) (past : l.state.PastTest) : l.Closed :=
  have ⟨now, next, ended⟩ := h.closed past
  ⟨now, next, ended⟩

/-- An account in order stays so with another state, if it is closed where the state follows test. -/
theorem of_account (h : l.Sound) (same : m.account = l.account := by rfl) (closed : m.state.PastTest → l.Closed) :
    m.Sound := by
  injection same with pass started tested lost final now next
  refine ⟨?_, ?_, ?_, ?_, fun past => ?_⟩
  · rw [final, now, next, tested]
    exact h.balance
  · rw [tested, lost, started]
    exact h.bounded
  · rw [started]
    exact h.sized
  · rw [pass, tested, lost, started]
    exact h.passed
  · rw [now, next, tested, lost, started]
    exact ⟨(closed past).now, (closed past).next, (closed past).ended⟩

/-- Units that move between F and the pools leave the account in order. -/
theorem of_pools (h : l.Sound)
    (rest : m = { l with final := m.final, poolNow := m.poolNow, poolNext := m.poolNext })
    (balance : m.final.total + m.poolNow.total + m.poolNext.total = l.tested)
    (closed : l.Closed → m.poolNow.total = 0 ∧ m.poolNext.total = 0) : m.Sound := by
  rw [rest]
  exact ⟨balance, h.bounded, h.sized, h.passed, fun past =>
    have last := h.isClosed past
    ⟨(closed last).1, (closed last).2, last.ended⟩⟩

/-- An account in order stays so where neither it nor the lot's state changes. -/
theorem of_same (h : l.Sound) (same : m.account = l.account := by rfl) (state : m.state = l.state := by rfl) :
    m.Sound := h.of_account same fun past => h.isClosed (state ▸ past)

/-- Once no unit is expected any more, all of them are accounted for. -/
theorem ended (h : l.Sound) (seen : l.PassOver) : l.tested + l.lost = l.started := by
  by_cases first : l.pass = 0
  · exact h.bounded.antisymm (seen first)
  · exact h.passed first

/-- The units declared lost end pass 0 (R67). -/
theorem declareShort (h : l.Sound) : l.declareShort.Sound := by
  have := h.bounded
  have all : l.declareShort.tested + l.declareShort.lost = l.declareShort.started := by
    simp only [Lot.declareShort]
    omega
  exact ⟨h.balance, all.le, h.sized, fun _ => all, fun past => ⟨(h.isClosed past).now, (h.isClosed past).next, all⟩⟩

theorem mergePool (h : l.Sound) : l.mergePool.Sound := by
  have balance := h.balance
  refine h.of_pools (m := l.mergePool) rfl ?_ fun closed => ?_
  · simp only [Lot.mergePool, Bins.total_add, Bins.total_zero]
    omega
  · simp [Lot.mergePool, closed.now, closed.next]

theorem closePool (h : l.Sound) : l.closePool.Sound := by
  have balance := h.balance
  refine h.of_pools (m := l.closePool) rfl ?_ fun closed => ?_
  · simp only [Lot.closePool, Bins.total_add, Bins.total_zero]
    omega
  · simp [Lot.closePool, closed.next]

/-- A later pass begins with all units accounted for. -/
theorem later (h : l.Sound) (ended : l.tested + l.lost = l.started) (k : Nat) : ({ l with pass := k } : Lot).Sound :=
  ⟨h.balance, h.bounded, h.sized, fun _ => ended, h.closed⟩

/-- The completion of a pass keeps the account of a lot with all its units accounted for (R109). -/
theorem completePass (h : l.Sound) (seen : l.PassOver) (n : Nat) : (l.completePass n).Sound := by
  have ended := h.ended seen
  unfold Lot.completePass
  split
  · exact h.mergePool.later (by simpa [Lot.mergePool] using ended) _
  · exact h.mergePool.closePool

/-- A pass that no other follows leaves the account closed (R109). -/
theorem closed_of_completePass {n : Nat} (h : (l.completePass n).Sound) (seen : l.PassOver)
    (last : l.retests n = false) : (l.completePass n).Closed := by
  have closes : l.completePass n = l.mergePool.closePool := if_neg (by simp [last])
  rw [closes] at h ⊢
  exact ⟨Bins.total_zero, Bins.total_zero, h.ended (by simpa [Lot.PassOver, Lot.closePool, Lot.mergePool] using seen)⟩

end Lot.Sound

/-! ## Units counted (R121, R122) -/

/-- The store of a unit tested leaves the account in order. -/
theorem Lot.store_total (l : Lot) (plan : BinPlan) (b : Fin 16) :
    (l.store plan b).final.total + (l.store plan b).poolNext.total = l.final.total + l.poolNext.total + 1 := by
  unfold Lot.store
  split
  · simp [Nat.add_assoc]
  · simp
    omega

/-- The lot of a tally is BOUND with its account in order. -/
structure Tally.Sound (t : Tally) : Prop where
  lot   : t.lot.Sound
  bound : t.lot.state = .bound

namespace Tally.Sound

variable {t : Tally}

theorem unitFirst (h : t.Sound) (plan : BinPlan) (site : Fin 8) (b : Fin 16) : (t.unitFirst plan site b).Sound := by
  have balance := h.lot.balance
  unfold Tally.unitFirst
  split
  · rename_i room
    have stored := Lot.store_total { t.lot with tested := t.lot.tested + 1 } plan b
    obtain ⟨final, next, e⟩ := Lot.store_cases { t.lot with tested := t.lot.tested + 1 } plan b
    rw [e] at stored ⊢
    refine ⟨⟨?_, ?_, h.lot.sized, fun later => ?_, fun past => ?_⟩, h.bound⟩
    · simp only [Tally.count] at stored ⊢
      omega
    · simp only [Tally.count]
      omega
    · exact absurd (h.lot.passed later) room.ne
    · simp [Tally.count, h.bound] at past
  · exact ⟨h.lot, h.bound⟩

theorem unitRetest (h : t.Sound) (plan : BinPlan) (origin b : Fin 16) : (t.unitRetest plan origin b).Sound := by
  have balance := h.lot.balance
  unfold Tally.unitRetest
  split
  · rename_i some
    have drawn := t.lot.poolNow.total_dec origin some
    have stored := Lot.store_total { t.lot with poolNow := t.lot.poolNow.dec origin } plan b
    obtain ⟨final, next, e⟩ := Lot.store_cases { t.lot with poolNow := t.lot.poolNow.dec origin } plan b
    rw [e] at stored ⊢
    refine ⟨⟨?_, h.lot.bounded, h.lot.sized, h.lot.passed, fun past => ?_⟩, h.bound⟩
    · simp only [Tally.count] at stored ⊢
      omega
    · simp [Tally.count, h.bound] at past
  · exact ⟨h.lot, h.bound⟩

theorem unit (h : t.Sound) (plan : BinPlan) (e : BinEntry) : (Tally.unit plan e t).Sound := by
  unfold Tally.unit
  split
  · split
    · exact h.unitFirst ..
    · exact h.unitRetest ..
  · exact h.unitFirst ..

theorem entries (h : t.Sound) (plan : BinPlan) (es : List BinEntry) : (Tally.entries plan t es).Sound := by
  have again (e : BinEntry) (n : Nat) (t : Tally) (h : t.Sound) : (Nat.repeat (Tally.unit plan e) n t).Sound := by
    induction n with
    | zero => exact h
    | succ n ih => exact ih.unit plan e
  induction es generalizing t with
  | nil => exact h
  | cons e es ih => exact ih (again e _ t h)

end Tally.Sound

end Sys2Proof.Machine
end

section
/-! What the work of an event leaves of the lots: accounts stay in order, hold counts agree with the hold list, every
lot keeps the terms it was entered with, and the settings stay (R55 to R59, R137, R181, R183). -/

namespace Sys2Proof.Machine

-- one theorem at a time: many at once, each with a thread of its own, can exceed the memory limit
set_option Elab.async false

/-! ## What is kept -/

/-- What a lot is from its entry on (R55). -/
structure Identity where
  id       : Id
  product  : Fin 32
  cls      : LotClass
  sequence : Stamp
  started  : Nat

def Lot.identity (l : Lot) : Identity := ⟨l.id, l.product, l.cls, l.sequence, l.started⟩

/-- What only LPRI changes of a lot in the table: its identity and its base priority (R55, R66). -/
def Lot.terms (l : Lot) : Identity × Nat := (l.identity, l.basePriority)

/-- The lot table and the hold list stay in order. -/
structure State.KeepsLots (s t : State) : Prop where
  lots  : s.LotsSound → t.LotsSound
  holds : s.HoldsSound → t.HoldsSound

/-- The configuration and the minute stamp stay as they are. -/
structure State.SameSettings (s t : State) : Prop where
  configState : t.configState = s.configState
  tables      : t.tables = s.tables
  store       : t.store = s.store
  stamp       : t.clock.stamp = s.clock.stamp

/-- Work that no lot enters or leaves by, and that leaves every lot its terms. -/
structure State.Carries (s t : State) : Prop extends s.KeepsLots t, s.SameSettings t where
  terms : s.LotsSound → t.lots.map Lot.terms = s.lots.map Lot.terms

/-- Work of holds, checks and sample decisions, which also leaves every lot its pass. -/
structure State.Judges (s t : State) : Prop extends s.Carries t where
  passes : (t.lots.map fun l => (l.id, l.pass)) = s.lots.map fun l => (l.id, l.pass)

theorem Lot.id_of_terms {l m : Lot} (h : m.terms = l.terms) : m.id = l.id :=
  congrArg (fun x : Identity × Nat => x.1.id) h

/-! ## The lot table -/

namespace State.LotsSound

variable {s t : State} {id : Id} {f : Lot → Lot}

theorem of_lots (h : s.LotsSound) (lots : t.lots = s.lots) : t.LotsSound :=
  ⟨lots ▸ h.room, lots ▸ h.ids, lots ▸ h.sound⟩

theorem empty (lots : t.lots = []) : t.LotsSound := by
  constructor <;> simp [lots]

/-- The lots of one id are the one that is found. -/
theorem lot_of_mem (h : s.LotsSound) {l : Lot} (mem : l ∈ s.lots) (at_id : l.id = id) : s.lot id = some l :=
  at_id ▸ State.lot_of_mem h.ids mem

theorem sound_of_lot (h : s.LotsSound) {l : Lot} (known : s.lot id = some l) : l.Sound := h.sound l (State.lot_mem known)

theorem map_onLot {α : Type} {π : Lot → α} (h : s.LotsSound) (same : ∀ l, s.lot id = some l → π (f l) = π l) :
    (s.onLot id f).lots.map π = s.lots.map π := by
  rw [State.onLot, List.map_map]
  refine List.map_congr_left fun l mem => ?_
  by_cases at_id : l.id = id
  · simp [at_id, same l (h.lot_of_mem mem at_id)]
  · simp [at_id]

theorem onLot (h : s.LotsSound) (ids : ∀ l, s.lot id = some l → (f l).id = l.id)
    (sound : ∀ l, s.lot id = some l → l.Sound → (f l).Sound) : (s.onLot id f).LotsSound where
  room := by simpa [State.onLot] using h.room
  ids := by rw [h.map_onLot ids]; exact h.ids
  sound := by
    simp only [State.onLot, List.mem_map]
    rintro _ ⟨l, mem, rfl⟩
    split
    · exact sound l (h.lot_of_mem mem ‹_›) (h.sound l mem)
    · exact h.sound l mem

end State.LotsSound

/-! ## The hold list -/

/-- No record has this key (R136). -/
theorem State.hasHold_eq_false {s : State} {r : HoldRecord} :
    s.hasHold r.lot r.kind r.arg = false ↔ r.key ∉ s.holds.map HoldRecord.key := by
  simp [State.hasHold, HoldRecord.is, HoldRecord.key, and_assoc]

theorem HoldRecord.is_iff {r : HoldRecord} {id : Id} {kind : HoldKind} {a : Nat} :
    r.is id kind a = true ↔ r.key = (id, kind, a) := by
  simp [HoldRecord.is, HoldRecord.key, and_assoc]

namespace State.HoldsSound

variable {s t : State} {id : Id} {f : Lot → Lot}

/-- Lots of the same ids with the same hold counts agree with the same hold list. -/
theorem of_lots (h : s.HoldsSound) (holds : t.holds = s.holds)
    (old : ∀ m ∈ t.lots, ∃ l ∈ s.lots, m.id = l.id ∧ m.holdCount = l.holdCount)
    (stay : ∀ l ∈ s.lots, ∃ m ∈ t.lots, m.id = l.id) : t.HoldsSound where
  room := holds ▸ h.room
  keys := holds ▸ h.keys
  lots r mem := by
    obtain ⟨l, there, same⟩ := h.lots r (holds ▸ mem)
    obtain ⟨m, there', same'⟩ := stay l there
    exact ⟨m, there', same'.trans same⟩
  count m mem := by
    obtain ⟨l, there, same, count⟩ := old m mem
    rw [holds, count, same]
    exact h.count l there

theorem of_records (h : s.HoldsSound) (lots : t.lots = s.lots) (holds : t.holds = s.holds) : t.HoldsSound :=
  ⟨holds ▸ h.room, holds ▸ h.keys, by rw [holds, lots]; exact h.lots, by rw [holds, lots]; exact h.count⟩

theorem empty (lots : t.lots = []) (holds : t.holds = []) : t.HoldsSound := by
  constructor <;> simp [lots, holds]

theorem onLot (h : s.HoldsSound) (ids : ∀ l ∈ s.lots, l.id = id → (f l).id = id)
    (count : ∀ l ∈ s.lots, l.id = id → (f l).holdCount = l.holdCount) : (s.onLot id f).HoldsSound := by
  refine h.of_lots rfl ?_ fun l mem => ?_
  · simp only [State.onLot, List.mem_map]
    rintro _ ⟨l, mem, rfl⟩
    refine ⟨l, mem, ?_⟩
    split
    · rename_i at_id
      exact ⟨(ids l mem at_id).trans at_id.symm, count l mem at_id⟩
    · exact ⟨rfl, rfl⟩
  · refine ⟨_, List.mem_map_of_mem mem, ?_⟩
    split
    · rename_i at_id
      exact (ids l mem at_id).trans at_id.symm
    · rfl

/-- A record of a lot in the table, with a new key, where there is room, is counted (R139). -/
theorem raise (h : s.HoldsSound) {r : HoldRecord} {l : Lot} (known : s.lot r.lot = some l)
    (fresh : s.hasHold r.lot r.kind r.arg = false) (room : s.holdsFull = false) :
    ({ s with holds := s.holds ++ [r] }.onLot r.lot fun l => { l with holdCount := l.holdCount + 1 }).HoldsSound where
  room := by
    have room : ¬64 ≤ s.holds.length := of_decide_eq_false room
    simp only [State.onLot, List.length_append, List.length_singleton]
    omega
  keys := by
    simp only [State.onLot, List.map_append, List.map_cons, List.map_nil]
    refine List.nodup_append.mpr ⟨h.keys, List.nodup_singleton _, ?_⟩
    rintro k mem _ one rfl
    exact State.hasHold_eq_false.mp fresh (List.mem_singleton.mp one ▸ mem)
  lots := by
    have there (x : HoldRecord) (old : ∃ m ∈ s.lots, m.id = x.lot) :
        ∃ m ∈ (s.onLot r.lot fun l => { l with holdCount := l.holdCount + 1 }).lots, m.id = x.lot := by
      obtain ⟨m, mem, same⟩ := old
      refine ⟨_, List.mem_map_of_mem mem, ?_⟩
      split <;> exact same
    intro x mem
    obtain mem | one := List.mem_append.mp mem
    · exact there x (h.lots x mem)
    · rw [List.mem_singleton.mp one]
      exact there r ⟨l, State.lot_mem known, s.lot_id known⟩
  count := by
    simp only [State.onLot, List.mem_map, List.filter_append, List.length_append]
    rintro _ ⟨m, mem, rfl⟩
    have count := h.count m mem
    by_cases at_r : m.id = r.lot
    · simp [at_r, count]
    · simp [at_r, Ne.symm at_r, count]

/-- The one record with a key leaves, and is no longer counted (R146). -/
theorem lower (h : s.HoldsSound) {kind : HoldKind} {a : Nat} (has : s.hasHold id kind a = true) :
    (s.removeHold id kind a).HoldsSound where
  room := (List.length_filter_le ..).trans h.room
  keys := h.keys.sublist (List.filter_sublist.map _)
  lots r mem := by
    obtain ⟨l, there, same⟩ := h.lots r (List.mem_filter.mp mem).1
    refine ⟨_, List.mem_map_of_mem there, ?_⟩
    split <;> exact same
  count := by
    have here : (id, kind, a) ∈ s.holds.map HoldRecord.key := by
      simpa [State.hasHold, HoldRecord.is_iff] using has
    have others : (s.holds.filter fun r => !r.is id kind a) = s.holds.filter fun r => r.key ≠ (id, kind, a) := by
      refine List.filter_congr fun r _ => ?_
      by_cases at_key : r.is id kind a = true
      · simp [HoldRecord.is_iff.mp at_key, at_key]
      · simp [mt HoldRecord.is_iff.mpr at_key, at_key]
    simp only [State.removeHold, State.onLot, List.mem_map, others]
    rintro _ ⟨m, mem, rfl⟩
    have count := h.count m mem
    by_cases at_id : m.id = id
    · subst at_id
      rw [if_pos rfl, count]
      exact (length_filter_key h.keys here fun r at_key => congrArg Prod.fst at_key).symm
    · rw [if_neg at_id, count, List.filter_filter]
      congr 1
      refine List.filter_congr fun r _ => ?_
      by_cases at_m : r.lot = m.id
      · simp [at_m, HoldRecord.key, at_id]
      · simp [at_m]

end State.HoldsSound

end Sys2Proof.Machine
end

section
/-! Holds, checks, sample decisions, runs, bindings, negotiations and gates carry the lots (chapters 3, 5, 6, 8, 9, 10). -/

namespace Sys2Proof.Machine

-- one theorem at a time: many at once, each with a thread of its own, can exceed the memory limit
set_option Elab.async false

theorem State.KeepsLots.refl (s : State) : s.KeepsLots s := ⟨id, id⟩

theorem State.KeepsLots.trans {r s t : State} (h : r.KeepsLots s) (k : s.KeepsLots t) : r.KeepsLots t :=
  ⟨k.lots ∘ h.lots, k.holds ∘ h.holds⟩

/-- What a change of lots leaves of each of them, it leaves of the table. -/
theorem State.onLot_map {α : Type} {s : State} {id : Id} {f : Lot → Lot} {π : Lot → α} (same : ∀ l, π (f l) = π l) :
    (s.onLot id f).lots.map π = s.lots.map π := by
  rw [State.onLot, List.map_map]
  refine List.map_congr_left fun l _ => ?_
  by_cases at_id : l.id = id <;> simp [at_id, same]

/-! ## Holds, checks and sample decisions (chapters 8 and 9) -/

namespace State.Judges

variable {r s t : State}

theorem refl (s : State) : s.Judges s := ⟨⟨.refl s, ⟨rfl, rfl, rfl, rfl⟩, fun _ => rfl⟩, rfl⟩

theorem trans (h : r.Judges s) (k : s.Judges t) : r.Judges t where
  lots := k.lots ∘ h.lots
  holds := k.holds ∘ h.holds
  configState := k.configState.trans h.configState
  tables := k.tables.trans h.tables
  store := k.store.trans h.store
  stamp := k.stamp.trans h.stamp
  terms sound := (k.terms (h.lots sound)).trans (h.terms sound)
  passes := k.passes.trans h.passes

theorem of_records (h : r.Judges s) (lots : t.lots = s.lots := by rfl) (holds : t.holds = s.holds := by rfl)
    (configState : t.configState = s.configState := by rfl) (tables : t.tables = s.tables := by rfl)
    (store : t.store = s.store := by rfl) (stamp : t.clock.stamp = s.clock.stamp := by rfl) : r.Judges t :=
  h.trans
    { lots := fun sound => sound.of_lots lots
      holds := fun sound => sound.of_records lots holds
      configState, tables, store, stamp
      terms := fun _ => by rw [lots]
      passes := by rw [lots] }

theorem of_onlyPorts (h : r.Judges s) (ports : s.OnlyPorts t) : r.Judges t := by
  rw [ports]
  exact h.of_records

theorem of_ite {c : Prop} [Decidable c] (h : c → r.Judges s) (k : ¬c → r.Judges t) : r.Judges (if c then s else t) := by
  split
  · exact h ‹_›
  · exact k ‹_›

/-- A change of a lot's state or marks. -/
theorem onLot (h : r.Judges s) (id : Id) (f : Lot → Lot)
    (sound : ∀ l, s.lot id = some l → l.Sound → (f l).Sound)
    (terms : ∀ l, (f l).terms = l.terms := by exact fun _ => rfl)
    (count : ∀ l, (f l).holdCount = l.holdCount := by exact fun _ => rfl)
    (pass : ∀ l, (f l).pass = l.pass := by exact fun _ => rfl) : r.Judges (s.onLot id f) := by
  have ids (l : Lot) : (f l).id = l.id := Lot.id_of_terms (terms l)
  exact h.trans
    { lots := fun k => k.onLot (fun l _ => ids l) sound
      holds := fun k => k.onLot (fun l _ at_id => (ids l).trans at_id) fun l _ _ => count l
      configState := rfl, tables := rfl, store := rfl, stamp := rfl
      terms := fun _ => State.onLot_map terms
      passes := State.onLot_map fun l => by rw [ids, pass] }

theorem nlot (h : r.Judges s) (id : Id) (cause : Cause) (hold : Option (HoldKind × Nat) := none) :
    r.Judges (s.nlot id cause hold) := h.of_onlyPorts (s.onlyPorts_nlot id cause hold)

theorem leaveQueue (h : r.Judges s) (id : Id) : r.Judges (s.leaveQueue id) := h.of_records

theorem stopRun (h : r.Judges s) (c : CellNo) : r.Judges (s.stopRun c) := by
  obtain e | ⟨_, -, -, u, ports, e⟩ := s.stopRun_cases c <;> rw [e]
  · exact h
  · exact (h.of_onlyPorts ports).of_records

/-- A RELEASED lot that is held is ACCEPTED again (R144, R165). -/
theorem withdraw (h : r.Judges s) {id : Id} (released : ∀ l, s.lot id = some l → l.state = .released) :
    r.Judges (s.withdraw id) := by
  have dropped : r.Judges (s.dropShipment id) := h.of_records
  refine (dropped.onLot id (fun l => { l with state := .accepted }) fun l known sound => ?_).nlot id _
  exact sound.of_account rfl fun _ => sound.isClosed (.inr (.inr (.inr (released l known))))

theorem firstHold (h : r.Judges s) (id : Id) : r.Judges (s.firstHold id) := by
  unfold State.firstHold
  split
  · exact h
  · rename_i l known
    split
    · exact h.leaveQueue id
    · split
      · exact h.stopRun _
      · exact h
    · rename_i released
      exact h.withdraw fun m known' => Option.some.inj (known.symm.trans known') ▸ released
    all_goals exact h

/-- A record is placed and counted (R139). -/
theorem appendHold (h : r.Judges s) {x : HoldRecord} {l : Lot} (known : s.lot x.lot = some l)
    (fresh : s.hasHold x.lot x.kind x.arg = false) (room : s.holdsFull = false) : r.Judges (s.appendHold x) := by
  have raised : s.Judges
      ({ s with holds := s.holds ++ [x] }.onLot x.lot fun l => { l with holdCount := l.holdCount + 1 }) :=
    { lots := fun sound => LotsSound.onLot (s := { s with holds := s.holds ++ [x] }) (sound.of_lots rfl)
        (fun _ _ => rfl) fun _ _ sound => sound.of_same
      holds := fun sound => sound.raise known fresh room
      configState := rfl, tables := rfl, store := rfl, stamp := rfl
      terms := fun _ => State.onLot_map (s := { s with holds := s.holds ++ [x] }) fun _ => rfl
      passes := State.onLot_map (s := { s with holds := s.holds ++ [x] }) fun _ => rfl }
  have placed := (h.trans raised).nlot x.lot .holdPlaced (some (x.kind, x.arg))
  exact of_ite (fun _ => placed.firstHold x.lot) fun _ => placed

theorem setOverflow (h : r.Judges s) (id : Id) : r.Judges (s.setOverflow id) := by
  obtain e | ⟨l, -, -, flagged⟩ := s.setOverflow_cases id
  · rw [e]
    exact h
  · have set := (h.onLot id (fun l => { l with overflow := true }) fun _ _ sound => sound.of_same).nlot id .overflowSet
    rcases flagged with e | e <;> rw [e]
    · exact set
    · exact set.firstHold id

theorem placeHold (h : r.Judges s) (src : Option Port) (id : Id) (kind : HoldKind) (a d : Nat) :
    r.Judges (s.placeHold src id kind a d) := by
  obtain e | ⟨-, -, e⟩ | ⟨l, known, fresh, room, e⟩ := s.placeHold_cases src id kind a d <;> rw [e]
  · exact h
  · exact h.setOverflow id
  · exact h.appendHold (x := ⟨id, kind, a, d, src, s.clock.stamp, 0⟩) known fresh room

theorem checkYield (h : r.Judges s) (src : Option Port) (id : Id) : r.Judges (s.checkYield src id) := by
  unfold State.checkYield
  split
  · exact h
  · split
    · exact of_ite (fun _ => h.placeHold ..) fun _ => h
    · exact h

theorem checkBin (h : r.Judges s) (src : Option Port) (id : Id) (b : Fin 16) :
    r.Judges (State.checkBin src id s b) := by
  unfold State.checkBin
  split
  · exact h
  · dsimp only
    split
    · exact of_ite (fun _ => h.placeHold ..) fun _ => h
    · exact h

theorem checkRatios (h : r.Judges s) (src : Option Port) (id : Id) : r.Judges (s.checkRatios src id) :=
  List.foldlRecOn _ _ (h.checkYield src id) fun _ u b _ => u.checkBin src id b

theorem acceptUnsampled (h : r.Judges s) {id : Id} (closed : ∀ l, s.lot id = some l → l.Sound → l.Closed) :
    r.Judges (s.acceptUnsampled id) :=
  (h.onLot id (fun l => { l with state := .accepted, rejects := 0 })
    fun l known sound => sound.of_account rfl fun _ => closed l known sound).nlot id .accepted

theorem sendSample (h : r.Judges s) {id : Id} (closed : ∀ l, s.lot id = some l → l.Sound → l.Closed)
    (product : Fin 32) (n : Nat) : r.Judges (s.sendSample id product n) := by
  have sent := h.onLot id (fun l => { l with sampleSize := some n, state := .sampling, samplePending := true })
    fun l known sound => sound.of_account rfl fun _ => closed l known sound
  exact (sent.of_onlyPorts (State.onlyPorts_notify _ qaPort (.nsmp id product n))).nlot id .sampling

/-- A TESTED lot is closed, so it may be SAMPLING or ACCEPTED (R153, R154). -/
theorem decideSample (h : r.Judges s) (id : Id) : r.Judges (s.decideSample id) := by
  unfold State.decideSample
  split
  · rename_i l known
    refine of_ite (fun decided => ?_) fun _ => h
    have tested (m : Lot) (known' : s.lot id = some m) (sound : m.Sound) : m.Closed := by
      obtain rfl := Option.some.inj (known.symm.trans known')
      simp only [Bool.and_eq_true, decide_eq_true_eq] at decided
      exact sound.isClosed (.inl decided.1)
    exact of_ite (fun _ => h.acceptUnsampled tested) fun _ => h.sendSample tested _ _
  · exact h

end State.Judges

/-! ## Runs, preparations and bindings (chapters 5 and 6) -/

theorem LotState.not_pastTest_waiting : ¬LotState.waiting.PastTest := by simp [LotState.PastTest]

theorem LotState.not_pastTest_bound : ¬LotState.bound.PastTest := by simp [LotState.PastTest]

theorem Lot.completePass_terms (l : Lot) (n : Nat) : (l.completePass n).terms = l.terms := by
  obtain ⟨_, _, _, _, e⟩ := l.completePass_cases n
  rw [e]
  rfl

theorem State.lot_own {s : State} {id : Id} {l : Lot} (known : s.lot id = some l) : s.lot l.id = some l := by
  rw [s.lot_id known, known]

theorem State.lot_of_boundLot {s : State} {c : CellNo} {l : Lot} (h : s.boundLot c = some l) :
    s.lot l.id = some l := by
  obtain ⟨id, -, known⟩ := Option.bind_eq_some_iff.mp h
  exact State.lot_own known

namespace State.Carries

variable {r s t : State}

theorem refl (s : State) : s.Carries s := (Judges.refl s).toCarries

theorem trans (h : r.Carries s) (k : s.Carries t) : r.Carries t where
  lots := k.lots ∘ h.lots
  holds := k.holds ∘ h.holds
  configState := k.configState.trans h.configState
  tables := k.tables.trans h.tables
  store := k.store.trans h.store
  stamp := k.stamp.trans h.stamp
  terms sound := (k.terms (h.lots sound)).trans (h.terms sound)

theorem of_judges (h : r.Carries s) (k : s.Judges t) : r.Carries t := h.trans k.toCarries

theorem of_records (h : r.Carries s) (lots : t.lots = s.lots := by rfl) (holds : t.holds = s.holds := by rfl)
    (configState : t.configState = s.configState := by rfl) (tables : t.tables = s.tables := by rfl)
    (store : t.store = s.store := by rfl) (stamp : t.clock.stamp = s.clock.stamp := by rfl) : r.Carries t :=
  h.of_judges ((Judges.refl s).of_records lots holds configState tables store stamp)

theorem of_onlyPorts (h : r.Carries s) (ports : s.OnlyPorts t) : r.Carries t :=
  h.of_judges ((Judges.refl s).of_onlyPorts ports)

theorem of_ite {c : Prop} [Decidable c] (h : c → r.Carries s) (k : ¬c → r.Carries t) :
    r.Carries (if c then s else t) := by
  split
  · exact h ‹_›
  · exact k ‹_›

/-! ### The updates of the records -/

theorem onLot (h : r.Carries s) (id : Id) (f : Lot → Lot)
    (sound : ∀ l, s.lot id = some l → l.Sound → (f l).Sound)
    (terms : ∀ l, (f l).terms = l.terms := by exact fun _ => rfl)
    (count : ∀ l, (f l).holdCount = l.holdCount := by exact fun _ => rfl) : r.Carries (s.onLot id f) :=
  h.trans
    { lots := fun k => k.onLot (fun l _ => Lot.id_of_terms (terms l)) sound
      holds := fun k => k.onLot (fun l _ at_id => (Lot.id_of_terms (terms l)).trans at_id) fun l _ _ => count l
      configState := rfl, tables := rfl, store := rfl, stamp := rfl
      terms := fun _ => State.onLot_map terms }

theorem onCell (h : r.Carries s) (c : CellNo) (f : Cell → Cell) : r.Carries (s.onCell c f) := h.of_records

theorem moveCell (h : r.Carries s) (c : CellNo) (f : Cell → Cell) : r.Carries (s.moveCell c f) := h.of_records

theorem setEntry (h : r.Carries s) (i : Position) (e : Option Entry) : r.Carries (s.setEntry i e) := h.of_records

theorem onEquip (h : r.Carries s) (id : Id) (f : Entry → Entry) : r.Carries (s.onEquip id f) := by
  unfold State.onEquip
  split
  · exact h.setEntry _ _
  · exact h

theorem leaveQueue (h : r.Carries s) (id : Id) : r.Carries (s.leaveQueue id) := h.of_records

theorem recompute (h : r.Carries s) : r.Carries s.recompute := h.of_records

theorem offerAll (h : r.Carries s) (o : OfferState) : r.Carries (s.offerAll o) := h.of_records

theorem joinQueue (h : r.Carries s) (id : Id) : r.Carries (s.joinQueue id) := by
  unfold State.joinQueue
  split
  · exact (h.onLot id (fun l => { l with joinStamp := s.clock.stamp }) fun _ _ sound => sound.of_same).of_records
  · exact h

theorem onPort (h : r.Carries s) (p : Port) (f : PortUnit → PortUnit) : r.Carries (s.onPort p f) := h.of_records

theorem notifyMember (h : r.Carries s) (m : Option Id) (n : Id → Notice) : r.Carries (s.notifyMember m n) :=
  h.of_onlyPorts (s.onlyPorts_notifyMember m n)

theorem notifyMembers (h : r.Carries s) (c : CellNo) (n : Id → Notice) : r.Carries (s.notifyMembers c n) :=
  h.of_onlyPorts (s.onlyPorts_notifyMembers c n)

theorem nlot (h : r.Carries s) (id : Id) (cause : Cause) (hold : Option (HoldKind × Nat) := none) :
    r.Carries (s.nlot id cause hold) := h.of_onlyPorts (s.onlyPorts_nlot id cause hold)

theorem attentionTest (h : r.Carries s) : r.Carries s.attentionTest := of_ite (fun _ => h.of_records) fun _ => h

theorem placeHold (h : r.Carries s) (src : Option Port) (id : Id) (kind : HoldKind) (a d : Nat) :
    r.Carries (s.placeHold src id kind a d) := h.of_judges ((Judges.refl s).placeHold src id kind a d)

theorem checkRatios (h : r.Carries s) (src : Option Port) (id : Id) : r.Carries (s.checkRatios src id) :=
  h.of_judges ((Judges.refl s).checkRatios src id)

theorem decideSample (h : r.Carries s) (id : Id) : r.Carries (s.decideSample id) :=
  h.of_judges ((Judges.refl s).decideSample id)

/-! ### Runs and passes -/

/-- A lot whose account is closed leaves its cell TESTED (R110). -/
theorem lotTested (h : r.Carries s) (src : Option Port) (c : CellNo) {id : Id}
    (closed : ∀ l, s.lot id = some l → l.Sound → l.Closed) : r.Carries (s.lotTested src c id) := by
  have tested := h.onLot id (fun l => { l with cell := none, state := .tested })
    fun l known sound => sound.of_account rfl fun _ => closed l known sound
  exact ((((tested.nlot id .tested).onCell c _).checkRatios src id).decideSample id).moveCell c _

theorem openRun (h : r.Carries s) (src : Option Port) (c : CellNo) (l : Lot) : r.Carries (s.openRun src c l) :=
  of_ite (fun _ => (h.placeHold ..).moveCell c _) fun _ =>
    ((h.onLot l.id (fun x => { x with runCount := l.runCount + 1 }) fun _ _ sound => sound.of_same).moveCell c
      _).notifyMembers c _

/-- The pass of a lot without work left is completed (R109). -/
theorem completePass (h : r.Carries s) {id : Id} {l : Lot} (known : s.lot id = some l) (seen : l.PassOver)
    (n : Nat) : r.Carries (s.onLot id fun x => x.completePass n) := by
  refine h.onLot id _ (fun m known' sound => ?_) (fun m => ?_) fun m => ?_
  · obtain rfl := Option.some.inj (known.symm.trans known')
    exact sound.completePass seen n
  · exact m.completePass_terms n
  · exact (m.completePass_stays n).holdCount

/-- A lot whose last pass has been completed is closed (R109). -/
theorem closed_of_completePass {id : Id} {l : Lot} (known : s.lot id = some l) (seen : l.PassOver) {n : Nat}
    (last : l.retests n = false) (m : Lot) (known' : (s.onLot id fun x => x.completePass n).lot id = some m)
    (sound : m.Sound) : m.Closed := by
  rw [State.onLot_lot_same s (fun x => x.completePass n) known fun x => (x.completePass_stays n).id] at known'
  obtain rfl := Option.some.inj known'
  exact sound.closed_of_completePass seen last

/-- A cell whose lot is unheld goes on (R102). -/
theorem goOn (h : r.Carries s) (src : Option Port) (c : CellNo) : r.Carries (s.goOn src c) := by
  unfold State.goOn
  split
  · exact h
  · rename_i l bound
    have known := State.lot_of_boundLot bound
    refine of_ite (fun _ => h.openRun src c l) fun idle => ?_
    have seen := Lot.passOver_of_idle (Bool.eq_false_iff.mpr idle)
    have completed := h.completePass known seen (s.product l).maxRetests
    exact of_ite (fun _ => completed.openRun src c _) fun last =>
      completed.lotTested src c (closed_of_completePass known seen (Bool.eq_false_iff.mpr last))

/-! ### Preparations and bindings -/

theorem buildProgram (h : r.Carries s) (c : CellNo) (p : Product) : r.Carries (s.buildProgram c p).1 := by
  unfold State.buildProgram
  split
  · exact h
  · dsimp only
    exact (h.notifyMember _ _).onCell c _

theorem buildThermal (h : r.Carries s) (c : CellNo) (p : Product) : r.Carries (s.buildThermal c p).1 := by
  unfold State.buildThermal
  dsimp only
  split
  · split
    · split <;> exact h
    · exact h
  · dsimp only
    exact (h.notifyMember _ _).onCell c _

theorem testPreparation (h : r.Carries s) (src : Option Port) (c : CellNo) :
    r.Carries (s.testPreparation src c) := by
  unfold State.testPreparation
  split
  · refine of_ite (fun _ => ?_) fun _ => h
    dsimp only
    split
    · exact of_ite (fun _ => (h.onCell c _).goOn src c) fun _ => (h.onCell c _).moveCell c _
    · exact h.onCell c _
  · exact h

theorem prepare (h : r.Carries s) (src : Option Port) (c : CellNo) : r.Carries (s.prepare src c) := by
  unfold State.prepare
  split
  · exact h
  · exact (((h.buildProgram c _).buildThermal c _).moveCell c _).testPreparation src c

theorem bind (h : r.Carries s) (src : Option Port) (id : Id) (c : CellNo) : r.Carries (s.bind src id c) := by
  have bound := (h.leaveQueue id).onLot id (fun l => { l with state := .bound, cell := some c })
    fun _ _ sound => sound.of_account rfl fun past => absurd past LotState.not_pastTest_bound
  exact ((bound.nlot id .bound).onCell c _).prepare src c

theorem serve (h : r.Carries s) (src : Option Port) (c : CellNo) : r.Carries (s.serve src c) :=
  State.serve_keeps r.Carries (fun _ id _ u => u.bind src id c) h

theorem offer (h : r.Carries s) (src : Option Port) (id : Id) : r.Carries (s.offer src id) :=
  State.offer_keeps r.Carries (fun _ k c u => u.bind src k c) h

theorem joinAndOffer (h : r.Carries s) (src : Option Port) (id : Id) : r.Carries (s.joinAndOffer src id) :=
  (h.joinQueue id).offer src id

theorem unbind (h : r.Carries s) (src : Option Port) (c : CellNo) (id : Id) (f : Cell → Cell) :
    r.Carries (s.unbind src c id f) := by
  have waits := h.onLot id (fun l => { l with cell := none, state := .waiting })
    fun _ _ sound => sound.of_account rfl fun past => absurd past LotState.not_pastTest_waiting
  have freed := (waits.nlot id .unbound).moveCell c fun x => f { x with bound := none }
  have served {p : Prop} [Decidable p] := (of_ite (c := p) (fun _ => freed.joinQueue id) fun _ => freed).serve src c
  exact of_ite (fun _ => served.offer src id) fun _ => served

theorem serveIdle (h : r.Carries s) (src : Option Port) : r.Carries (s.serveIdle src) :=
  List.foldlRecOn _ _ h fun _ u c _ => u.serve src c

/-! ### The ends of runs and preparations, and lots that become unheld -/

theorem placeCloseHold (h : r.Carries s) (src : Option Port) (id : Id) (hold : CloseHold) :
    r.Carries (s.placeCloseHold src id hold) := by
  unfold State.placeCloseHold
  split
  · exact h.placeHold ..
  · exact h

theorem afterClose (h : r.Carries s) (src : Option Port) (c : CellNo) (id : Id) :
    r.Carries (s.afterClose src c id) := by
  unfold State.afterClose
  split
  · exact h
  · rename_i l known
    cases work : l.hasWork with
    | true =>
      exact of_ite (fun none => absurd none.1 (by simp)) fun _ =>
        of_ite (fun _ => h.openRun src c _) fun _ => h.moveCell c _
    | false =>
      have seen := Lot.passOver_of_idle work
      have completed := h.completePass known seen (s.product l).maxRetests
      exact of_ite
        (fun none => completed.lotTested src c (closed_of_completePass known seen (by simpa using none.2)))
        fun _ => of_ite (fun _ => completed.openRun src c _) fun _ => completed.moveCell c _

theorem closeRun (h : r.Carries s) (src : Option Port) (c : CellNo) (hold : CloseHold) (reason : EndReason) :
    r.Carries (s.closeRun src c hold reason) := by
  unfold State.closeRun
  split
  · exact h
  · exact ((((h.onCell c _).placeCloseHold src _ hold).placeCloseHold src _ _).afterClose src c _).serve src c

theorem evaluateEnd (h : r.Carries s) (src : Option Port) (c : CellNo) (x : Run) (count : Nat)
    (reason : EndReason) : r.Carries (s.evaluateEnd src c x count reason).1 := by
  unfold State.evaluateEnd
  dsimp only
  split
  · exact (h.onCell c _).moveCell c _
  · exact (h.onCell c _).closeRun src c _ _

theorem testClose (h : r.Carries s) (src : Option Port) (c : CellNo) : r.Carries (s.testClose src c) := by
  unfold State.testClose
  split
  · split
    · exact of_ite (fun _ => h.closeRun src c _ _) fun _ => h
    · exact h
  · exact h

theorem closeExpired (h : r.Carries s) (src : Option Port) (c : CellNo) : r.Carries (s.closeExpired src c) := by
  unfold State.closeExpired
  split
  · split
    · exact h.closeRun src c _ _
    · exact h
  · exact h

theorem loadFailed (h : r.Carries s) (src : Option Port) (c : CellNo) : r.Carries (s.loadFailed src c) := by
  unfold State.loadFailed
  split
  · exact h
  · exact (h.onCell c _).unbind src c _ _

theorem settleFailed (h : r.Carries s) (src : Option Port) (c : CellNo) : r.Carries (s.settleFailed src c) := by
  unfold State.settleFailed
  split
  · exact h
  · exact (h.onCell c _).unbind src c _ _

theorem becomeUnheld (h : r.Carries s) (src : Option Port) (id : Id) : r.Carries (s.becomeUnheld src id) := by
  unfold State.becomeUnheld
  split
  · exact h
  · split
    · exact h.joinAndOffer src id
    · split
      · exact of_ite (fun _ => (h.goOn src _).serve src _) fun _ => h
      · exact h
    · exact h.decideSample id
    · exact of_ite (fun _ => h) fun _ => h.placeHold ..
    all_goals exact h

/-! ### Negotiation, formation and disturbances (chapter 3) -/

theorem enterOffer (h : r.Carries s) (c : CellNo) (handler tester : Bool := false) :
    r.Carries (s.enterOffer c handler tester) := by
  have offered := h.moveCell c fun x =>
    { x with
      state := .offer, fault := none,
      negotiation := some (Negotiation.fresh handler tester s.tables.parameters.negotiation) }
  have asked (m : Option Id) :=
    of_ite (c := handler = true) (fun _ => offered) fun _ => offered.notifyMember m fun id => .nabq id c
  exact of_ite (fun _ => asked _) fun _ => (asked _).notifyMember _ _

theorem enterFault (h : r.Carries s) (c : CellNo) (reason : FaultReason) : r.Carries (s.enterFault c reason) :=
  h.moveCell c _

theorem reported (h : r.Carries s) (c : CellNo) : r.Carries (s.reported c) := by
  unfold State.reported
  split
  · exact of_ite (fun _ => h.enterFault c _) fun _ => (h.moveCell c _).notifyMembers c _
  · exact h

theorem formed (h : r.Carries s) (src : Option Port) (c : CellNo) (cap : Capability) :
    r.Carries (s.formed src c cap) := by
  have formed := h.onCell c fun x =>
    { x with
      common := some cap, active := cap.sites, thermal := Thermal.clear, failed := none, negotiation := none }
  unfold State.formed
  dsimp only
  split
  · exact (formed.moveCell c _).serve src c
  · exact of_ite (fun _ => (formed.prepare src c).serve src c) fun _ => formed.unbind src c _ _

theorem disturbMove (h : r.Carries s) (c : CellNo) (d : Disturbance) : r.Carries (s.disturbMove c d) := by
  cases d with
  | stale => exact h.moveCell c _
  | reannounce => exact of_ite (fun _ => h.moveCell c _) fun _ => h.enterOffer c

theorem disturb (h : r.Carries s) (src : Option Port) (c : CellNo) (d : Disturbance) :
    r.Carries (s.disturb src c d) := by
  refine of_ite (fun _ => h) fun _ => ?_
  dsimp only
  split
  · exact ((h.onCell c _).disturbMove c d).placeHold ..
  · exact (h.onCell c _).disturbMove c d

theorem memberReturn (h : r.Carries s) (c : CellNo) (id : Id) : r.Carries (s.memberReturn c id) := by
  unfold State.memberReturn
  dsimp only
  split
  · exact of_ite (fun _ => h.enterOffer c) fun _ => h
  · exact of_ite (fun _ => h) fun _ => h.notifyMember _ _
  · refine of_ite (fun _ => h) fun _ => ?_
    split
    · exact h.notifyMember _ _
    · exact h
  · exact h

theorem reportReturn (h : r.Carries s) (c : Option CellNo) (id : Id) : r.Carries (s.reportReturn c id) := by
  cases c with
  | none => exact h
  | some c => exact h.memberReturn c id

theorem clearMembership (h : r.Carries s) (m : Option Id) : r.Carries (s.clearMembership m) := by
  cases m with
  | none => exact h
  | some id => exact h.onEquip id _

theorem undock (h : r.Carries s) (src : Option Port) (c : CellNo) : r.Carries (s.undock src c) := by
  have told := ((h.clearMembership (s.cell c).handler).clearMembership (s.cell c).tester).notifyMembers c
    fun id => .ndis id c
  unfold State.undock
  dsimp only
  split
  · exact told.unbind src c _ _
  · exact told.moveCell c _

/-! ### Gates and the period minute (chapter 10) -/

theorem evaluateGates (h : r.Carries s) (src : Option Port) : r.Carries (s.evaluateGates src) := by
  have recorded (d e : GateState) :
      r.Carries { s with clock := { s.clock with dispatchGate := d, releaseGate := e } } := h.of_records
  have delivered (d e was now : GateState) : r.Carries (State.deliverDispatch
      { s with clock := { s.clock with dispatchGate := d, releaseGate := e } } src was now) :=
    of_ite (fun _ => (recorded d e).serveIdle src) fun _ => recorded d e
  exact of_ite (fun _ => ((delivered ..).offerAll _).attentionTest) fun _ =>
    of_ite (fun _ => (delivered ..).offerAll _) fun _ => delivered ..

theorem periodChanged (h : r.Carries s) (src : Option Port) : r.Carries (s.periodChanged src) := by
  have clamped : r.Carries s.clampMinute := of_ite (fun _ => h.of_records) fun _ => h
  exact clamped.evaluateGates src

theorem endSoak (h : r.Carries s) (c : CellNo) : r.Carries (s.endSoak c) :=
  of_ite (fun _ => ((h.onCell c _).testPreparation none c).serve none c) fun _ => h

end State.Carries

end Sys2Proof.Machine
end

section
/-! What each command may do to the records: the lot table and the hold list stay in order, and of the settings and the
lots' terms a command changes only what is its own (R55 to R59, R66, R137, R171, R181, R183, R187 to R194). -/

namespace Sys2Proof.Machine

-- one theorem at a time: many at once, each with a thread of its own, can exceed the memory limit
set_option Elab.async false

/-! ## What is a command's own -/

/-- Between `s` and `t` the command `i` has changed only settings that are its own, and of the lots that stay at most, if
it is LPRI, a base priority. -/
structure State.Follows (i : Instr) (s t : State) : Prop where
  configState : t.configState ≠ s.configState → (∃ cut, i = .powerOnReset cut) ∨ (∃ r, i = .startUpLoad r)
    ∨ (∃ r, i = .storeLoadReattempt r) ∨ ∃ p, i = .crdy p
  tables : t.tables ≠ s.tables → (∃ cut, i = .powerOnReset cut) ∨ (∃ r, i = .startUpLoad r)
    ∨ (∃ r, i = .storeLoadReattempt r) ∨ ∃ p, i = .wprd p ∨ i = .wbpl p ∨ i = .wpar p ∨ i = .wwin p
  store : t.store ≠ s.store → (∃ cut, i = .powerOnReset cut) ∨ (∃ r, i = .storeWrite r) ∨ ∃ p, i = .csav p
  stamp : t.clock.stamp ≠ s.clock.stamp → ∃ cut, i = .powerOnReset cut
  stays : s.LotsSound → ∀ l ∈ s.lots, ∀ l' ∈ t.lots, l'.id = l.id →
    l'.identity = l.identity ∧ (l'.basePriority ≠ l.basePriority → ∃ p, i = .lpri p)

/-- The command `i` keeps the lots in order and changes what is its own. -/
structure State.Does (i : Instr) (s t : State) : Prop extends s.KeepsLots t, State.Follows i s t

theorem State.mem_of_terms {s t : State} (h : t.lots.map Lot.terms = s.lots.map Lot.terms) {l : Lot}
    (mem : l ∈ t.lots) : ∃ m ∈ s.lots, m.terms = l.terms :=
  List.mem_map.mp (h ▸ List.mem_map_of_mem mem)

namespace State.Does

variable {i : Instr} {s t u : State}

/-- Work that carries the lots may be any command's. -/
theorem of_carries (h : s.Carries t) : s.Does i t where
  toKeepsLots := h.toKeepsLots
  configState changed := absurd h.configState changed
  tables changed := absurd h.tables changed
  store changed := absurd h.store changed
  stamp changed := absurd h.stamp changed
  stays sound l mem l' mem' same := by
    obtain ⟨m, there, terms⟩ := State.mem_of_terms (h.terms sound) mem'
    have at_l : s.lot l.id = some m := sound.lot_of_mem there ((Lot.id_of_terms terms).trans same)
    obtain rfl := Option.some.inj ((sound.lot_of_mem mem rfl).symm.trans at_l)
    exact ⟨(congrArg Prod.fst terms).symm, fun changed => absurd (congrArg Prod.snd terms).symm changed⟩

/-- Work before the command's own. -/
theorem after (h : s.Carries u) (k : u.Does i t) : s.Does i t where
  lots := k.lots ∘ h.lots
  holds := k.holds ∘ h.holds
  configState := h.configState ▸ k.configState
  tables := h.tables ▸ k.tables
  store := h.store ▸ k.store
  stamp := h.stamp ▸ k.stamp
  stays sound l mem l' mem' same := by
    obtain ⟨m, there, terms⟩ := State.mem_of_terms (h.terms sound).symm mem
    obtain ⟨identity, priority⟩ := k.stays (h.lots sound) m there l' mem' (same.trans (Lot.id_of_terms terms).symm)
    have same_identity : m.identity = l.identity := congrArg Prod.fst terms
    have same_priority : m.basePriority = l.basePriority := congrArg Prod.snd terms
    exact ⟨identity.trans same_identity, same_priority ▸ priority⟩

/-- Work after the command's own. -/
theorem andThen (h : s.Does i u) (k : u.Carries t) : s.Does i t where
  lots := k.lots ∘ h.lots
  holds := k.holds ∘ h.holds
  configState := k.configState ▸ h.configState
  tables := k.tables ▸ h.tables
  store := k.store ▸ h.store
  stamp := k.stamp ▸ h.stamp
  stays sound l mem l' mem' same := by
    obtain ⟨m, there, terms⟩ := State.mem_of_terms (k.terms (h.lots sound)) mem'
    obtain ⟨identity, priority⟩ := h.stays sound l mem m there ((Lot.id_of_terms terms).trans same)
    have same_identity : m.identity = l'.identity := congrArg Prod.fst terms
    have same_priority : m.basePriority = l'.basePriority := congrArg Prod.snd terms
    exact ⟨same_identity.symm.trans identity, same_priority ▸ priority⟩

theorem refl (s : State) : s.Does i s := of_carries (.refl s)

theorem of_ite {c : Prop} [Decidable c] (h : c → s.Does i t) (k : ¬c → s.Does i u) : s.Does i (if c then t else u) := by
  split
  · exact h ‹_›
  · exact k ‹_›

theorem of_outcomes {c : Prop} [Decidable c] {x y : State × Reply} (h : c → s.Does i x.1) (k : ¬c → s.Does i y.1) :
    s.Does i (if c then x else y).1 := by
  split
  · exact h ‹_›
  · exact k ‹_›

end State.Does

/-! ## Changes of settings -/

/-- A change of the settings that is the command's own leaves the lots as they are. -/
theorem State.Does.of_settings {i : Instr} {s t : State} (lots : t.lots = s.lots) (holds : t.holds = s.holds)
    (configState : t.configState ≠ s.configState → (∃ cut, i = .powerOnReset cut) ∨ (∃ r, i = .startUpLoad r)
      ∨ (∃ r, i = .storeLoadReattempt r) ∨ ∃ p, i = .crdy p)
    (tables : t.tables ≠ s.tables → (∃ cut, i = .powerOnReset cut) ∨ (∃ r, i = .startUpLoad r)
      ∨ (∃ r, i = .storeLoadReattempt r) ∨ ∃ p, i = .wprd p ∨ i = .wbpl p ∨ i = .wpar p ∨ i = .wwin p)
    (store : t.store ≠ s.store → (∃ cut, i = .powerOnReset cut) ∨ (∃ r, i = .storeWrite r) ∨ ∃ p, i = .csav p)
    (stamp : t.clock.stamp = s.clock.stamp) : s.Does i t where
  lots sound := sound.of_lots lots
  holds sound := sound.of_records lots holds
  configState := configState
  tables := tables
  store := store
  stamp changed := absurd stamp changed
  stays sound l mem l' mem' same := by
    obtain rfl : l = l' := Option.some.inj
      ((sound.lot_of_mem mem rfl).symm.trans (sound.lot_of_mem (lots ▸ mem') same))
    exact ⟨rfl, fun changed => absurd rfl changed⟩

theorem State.Does.withTables {i : Instr} {s : State} (tables : Tables)
    (own : ∃ p, i = .wprd p ∨ i = .wbpl p ∨ i = .wpar p ∨ i = .wwin p) : s.Does i { s with tables := tables } :=
  .of_settings rfl rfl (absurd rfl) (fun _ => .inr (.inr (.inr own))) (absurd rfl) rfl

/-! ## Lots that enter and leave -/

namespace State.Does

variable {i : Instr} {s : State}

/-- A lot with a new id and no hold joins the table. -/
theorem addLot {l : Lot} (fresh : s.lot l.id = none) (sound : l.Sound) (unheld : l.holdCount = 0)
    (room : s.lots.length < 256) (sequence : Stamp) :
    s.Does i { s with lots := s.lots ++ [l], sequence := sequence } := by
  have new : ∀ m ∈ s.lots, m.id ≠ l.id := by simpa [State.lot] using fresh
  refine ⟨⟨fun h => ⟨?_, ?_, ?_⟩, fun h => ⟨h.room, h.keys, ?_, ?_⟩⟩, ⟨absurd rfl, absurd rfl, absurd rfl, absurd rfl, ?_⟩⟩
  · simpa using room
  · rw [List.map_append, List.nodup_append]
    refine ⟨h.ids, List.nodup_singleton _, ?_⟩
    rintro _ mem _ one rfl
    obtain ⟨m, there, same⟩ := List.mem_map.mp mem
    exact new m there (same.trans (List.mem_singleton.mp one))
  · intro m mem
    obtain mem | one := List.mem_append.mp mem
    · exact h.sound m mem
    · exact List.mem_singleton.mp one ▸ sound
  · intro r mem
    obtain ⟨m, there, same⟩ := h.lots r mem
    exact ⟨m, List.mem_append_left _ there, same⟩
  · intro m mem
    obtain mem | one := List.mem_append.mp mem
    · exact h.count m mem
    · rw [List.mem_singleton.mp one, unheld, eq_comm, List.length_eq_zero_iff, List.filter_eq_nil_iff]
      intro r mem at_l
      obtain ⟨m, there, same⟩ := h.lots r mem
      exact new m there (same.trans (of_decide_eq_true at_l))
  · intro h m mem m' mem' same
    obtain mem' | one := List.mem_append.mp mem'
    · exact (State.Does.refl (i := i) s).stays h m mem m' mem' same
    · exact absurd (List.mem_singleton.mp one ▸ same).symm (new m mem)

/-- A lot leaves the table with its records (R73, R149). -/
theorem freeLot (l : Lot) (cause : Cause) : s.Does i (s.freeLot l cause) := by
  refine ⟨⟨fun h => ⟨?_, ?_, ?_⟩, fun h => ⟨?_, ?_, ?_, ?_⟩⟩, ⟨absurd rfl, absurd rfl, absurd rfl, absurd rfl, ?_⟩⟩
  · exact (List.length_filter_le ..).trans h.room
  · exact h.ids.sublist (List.filter_sublist.map _)
  · exact fun m mem => h.sound m (List.mem_filter.mp mem).1
  · exact (List.length_filter_le ..).trans h.room
  · exact h.keys.sublist (List.filter_sublist.map _)
  · intro r mem
    obtain ⟨mem, other⟩ := List.mem_filter.mp mem
    obtain ⟨m, there, same⟩ := h.lots r mem
    exact ⟨m, List.mem_filter.mpr ⟨there, by simpa [same] using other⟩, same⟩
  · intro m mem
    obtain ⟨mem, other⟩ := List.mem_filter.mp mem
    have other : m.id ≠ l.id := of_decide_eq_true other
    show m.holdCount = ((s.holds.filter _).filter _).length
    rw [h.count m mem, List.filter_filter]
    congr 1
    refine List.filter_congr fun r _ => ?_
    by_cases at_m : r.lot = m.id <;> simp [at_m, other]
  · intro h m mem m' mem' same
    exact (State.Does.refl (i := i) s).stays h m mem m' (List.mem_filter.mp mem').1 same

end State.Does

end Sys2Proof.Machine
end

section
/-! What the owners of the requests do to the lots and the settings (chapters 2 to 11). -/

namespace Sys2Proof.Machine

-- one theorem at a time: many at once, each with a thread of its own, can exceed the memory limit
set_option Elab.async false

open State (Carries Does)

/-- The owner's work carries the lots, on every request that the reader takes. -/
def OwnerCarries {α : Type} (read : List Byte → Checked α) (owner : Owner α) : Prop :=
  ∀ (f : Frame) (a : α) (s : State), read f.payload = .ok a → s.Carries (owner f a s).1

/-- The owner's work is the command's, on every request that the reader takes. -/
def OwnerDoes {α : Type} (i : Instr) (read : List Byte → Checked α) (owner : Owner α) : Prop :=
  ∀ (f : Frame) (a : α) (s : State), read f.payload = .ok a → s.Does i (owner f a s).1

theorem OwnerCarries.does {α : Type} {read : List Byte → Checked α} {owner : Owner α} (h : OwnerCarries read owner)
    (i : Instr) : OwnerDoes i read owner := fun f a s reads => .of_carries (h f a s reads)

theorem State.Carries.of_outcomes {c : Prop} [Decidable c] {s : State} {x y : State × Reply} (h : c → s.Carries x.1)
    (k : ¬c → s.Carries y.1) : s.Carries (if c then x else y).1 := by
  split
  · exact h ‹_›
  · exact k ‹_›

/-! ## LENT (R62 to R64) -/

theorem Cursor.num_ok {c c' : Cursor} {size lo hi n : Nat} (h : c.num size lo hi = .ok (n, c')) : lo ≤ n ∧ n ≤ hi := by
  obtain ⟨⟨bs, d⟩, -, h⟩ := checked_bind_eq_ok h
  dsimp only at h
  split at h
  · rename_i within
    injection h with e
    injection e with e
    exact e ▸ within
  · cases h

/-- The started quantity of a LENT is 1 to 65,535 (R62). -/
theorem readLent_started {payload : List Byte} {a : LentFields} (h : readLent payload = .ok a) :
    1 ≤ a.started ∧ a.started ≤ 65535 := by
  obtain ⟨⟨lot, c⟩, -, h⟩ := checked_bind_eq_ok h
  obtain ⟨⟨product, c⟩, -, h⟩ := checked_bind_eq_ok h
  obtain ⟨⟨cls, c⟩, -, h⟩ := checked_bind_eq_ok h
  obtain ⟨⟨base, c⟩, -, h⟩ := checked_bind_eq_ok h
  obtain ⟨⟨started, c⟩, range, h⟩ := checked_bind_eq_ok h
  obtain ⟨⟨restore, c⟩, -, h⟩ := checked_bind_eq_ok h
  dsimp only [Cursor.finish] at h
  split at h
  · injection h with e
    exact e ▸ Cursor.num_ok range
  · cases h

/-- What makes a restore part consistent (R63). -/
theorem Restore.consistent_iff {r : Restore} {started n : Nat} {p : BinPlan} : r.consistent started n p = true ↔
    r.final.total + r.pool.total = r.tested ∧ r.tested + r.lost ≤ started
      ∧ (∀ b : Fin 16, p[b].cls = .retest ∨ r.pool[b] = 0) ∧ r.pass ≤ n
      ∧ (r.pass ≠ 0 → r.tested + r.lost = started) := by
  simp [Restore.consistent, and_assoc, or_iff_not_imp_left]

/-- A lot enters with its account in order (R63). -/
theorem LentFields.entered_sound {a : LentFields} (started : 1 ≤ a.started ∧ a.started ≤ 65535) {n : Nat} {p : BinPlan}
    (consistent : ∀ r, a.restore = some r → r.consistent a.started n p = true) (sequence stamp : Stamp) :
    (a.entered sequence stamp).Sound := by
  cases part : a.restore with
  | none =>
    refine ⟨?_, ?_, started, ?_, fun past => absurd past LotState.not_pastTest_waiting⟩ <;>
      simp [LentFields.entered, part]
  | some r =>
    obtain ⟨balance, bounded, -, -, later⟩ := Restore.consistent_iff.mp (consistent r part)
    refine ⟨?_, ?_, started, ?_, fun past => absurd past LotState.not_pastTest_waiting⟩
    · by_cases first : r.pass = 0 <;> simp [LentFields.entered, part, first, balance]
    · simpa [LentFields.entered, part] using bounded
    · simpa [LentFields.entered, part] using later

theorem Lot.Sound.tested {l : Lot} (h : l.Sound) (closed : l.Closed) : ({ l with state := .tested } : Lot).Sound :=
  h.of_account rfl fun _ => closed

/-- A lot whose restored pass is complete settles with its account in order (R64). -/
theorem Lot.Sound.settledEntry {l : Lot} (h : l.Sound) (restored : Bool) (n : Nat) :
    (l.settledEntry restored n).Sound := by
  unfold Lot.settledEntry
  split
  · rename_i idle
    simp only [Bool.and_eq_true, Bool.not_eq_true'] at idle
    have seen := Lot.passOver_of_idle idle.2
    have completed := h.completePass seen n
    split
    · exact completed
    · rename_i last
      exact completed.tested (completed.closed_of_completePass seen (Bool.eq_false_iff.mpr last))
  · exact h

theorem State.Does.enterLot {i : Instr} {s : State} {l : Lot} (fresh : s.lot l.id = none) (sound : l.Sound)
    (unheld : l.holdCount = 0) (room : s.lots.length < 256) (src : Option Port) : s.Does i (s.enterLot src l) := by
  have added : s.Does i { s with lots := s.lots ++ [l], sequence := nextSequence s.sequence } :=
    .addLot fresh sound unheld room _
  have entered := (Carries.refl { s with lots := s.lots ++ [l], sequence := nextSequence s.sequence }).nlot l.id .entered
  exact .of_ite (fun _ => added.andThen ((entered.checkRatios src l.id).decideSample l.id))
    fun _ => added.andThen (entered.joinAndOffer src l.id)

theorem lentConfigured_does (i : Instr) : OwnerDoes i readLent lentConfigured := by
  intro f a s reads
  have h := State.Does.refl (i := i) s
  refine .of_outcomes (fun _ => h) fun _ => .of_outcomes (fun _ => h) fun fresh =>
    .of_outcomes (fun _ => h) fun consistent => .of_outcomes (fun _ => h) fun room => ?_
  obtain ⟨id, -, unheld, -⟩ := a.settled s.sequence s.clock.stamp a.restore.isSome
    (s.tables.products[a.product]).maxRetests
  refine .enterLot (by rw [id]; simpa using fresh) (.settledEntry ?_ _ _) unheld (not_le.mp room) _
  refine LentFields.entered_sound (readLent_started reads) (n := (s.tables.products[a.product]).maxRetests)
    (p := s.plan s.tables.products[a.product]) (fun r part => ?_) _ _
  simpa [part] using consistent

theorem afterReattempt_does {α : Type} {i : Instr} {read : List Byte → Checked α} {owner : Owner α}
    (does : OwnerDoes i read owner) : OwnerDoes i read (afterReattempt owner) :=
  fun f a s reads => .of_outcomes (fun _ => .of_carries (Carries.refl s).of_records) fun _ => does f a s reads

/-! ## LREM, LPRI and LSHT (R65 to R67) -/

theorem lremOwner_does (i : Instr) {read : List Byte → Checked Id} : OwnerDoes i read lremOwner := by
  intro f id s _
  unfold lremOwner
  split
  · exact .refl s
  · exact .of_outcomes (fun _ => .refl s) fun _ => .freeLot _ _

theorem lpriOwner_does (p : Port) {read : List Byte → Checked (Id × Nat)} : OwnerDoes (.lpri p) read lpriOwner := by
  intro f a s _
  unfold lpriOwner
  split
  · exact .refl s
  · have based : s.Does (.lpri p) (s.onLot a.1 fun l => { l with basePriority := a.2 }) := by
      refine ⟨⟨fun h => h.onLot (fun _ _ => rfl) fun _ _ sound => sound.of_same,
        fun h => h.onLot (fun _ _ at_id => at_id) fun _ _ _ => rfl⟩, ⟨absurd rfl, absurd rfl, absurd rfl, absurd rfl, ?_⟩⟩
      intro h l mem l' mem' same
      refine ⟨?_, fun _ => ⟨p, rfl⟩⟩
      obtain ⟨m, there, rfl⟩ := List.mem_map.mp mem'
      have same_id : m.id = l.id := by split at same <;> exact same
      obtain rfl := Option.some.inj ((h.lot_of_mem mem rfl).symm.trans (h.lot_of_mem there same_id))
      split <;> rfl
    have recomputed : (s.onLot a.1 fun l => { l with basePriority := a.2 }).Carries
      ((s.onLot a.1 fun l => { l with basePriority := a.2 }).recomputeLot a.1) := (Carries.refl _).of_records
    exact .of_ite (fun _ => based.andThen (recomputed.offer _ _)) fun _ => based

/-- The units declared short complete pass 0 (R67). -/
theorem State.Carries.declareShort (s : State) (id : Id) (n : Nat) :
    s.Carries (s.onLot id fun l => l.declareShort.completePass n) :=
  (Carries.refl s).onLot id _ (fun l _ sound => sound.declareShort.completePass l.passOver_declareShort n)
    (fun l => l.declareShort.completePass_terms n) fun l => (l.declareShort.completePass_stays n).holdCount

theorem lshtOwner_carries {read : List Byte → Checked Id} : OwnerCarries read lshtOwner := by
  intro f id s _
  have h := Carries.refl s
  unfold lshtOwner
  split
  · exact h
  · rename_i l known
    refine .of_outcomes (fun _ => h) fun _ => ?_
    have short := Carries.declareShort s id (s.product l).maxRetests
    dsimp only
    split
    · exact short
    · rename_i last
      have left := short.onLot id (fun l => { l with state := .tested }) fun m known' sound =>
        sound.of_account rfl fun _ => ?_
      · exact (((left.leaveQueue id).nlot id .tested).checkRatios _ id).decideSample id
      · rw [State.onLot_lot_same s _ known fun x => (x.declareShort.completePass_stays _).id] at known'
        obtain rfl := Option.some.inj known'
        exact sound.closed_of_completePass l.passOver_declareShort (Bool.eq_false_iff.mpr last)

/-! ## Holds (chapter 8) -/

theorem holdOwner_carries {read : List Byte → Checked (Id × Nat)} (p : Port) : OwnerCarries read (holdOwner p) := by
  intro f a s _
  have h := Carries.refl s
  unfold holdOwner
  dsimp only
  split
  · exact h
  · rename_i l known
    refine .of_outcomes (fun _ => h) fun fresh => .of_outcomes (fun _ => h) fun room => ?_
    exact h.of_judges ((State.Judges.refl s).appendHold
      (x := ⟨a.1, (holdKey p a.2).1, (holdKey p a.2).2, 0, some p, s.clock.stamp, a.2⟩) known
      (Bool.eq_false_iff.mpr fresh) (Bool.eq_false_iff.mpr room))

/-- A record leaves and is no longer counted (R146). -/
theorem State.Carries.removeHold {s : State} {id : Id} {kind : HoldKind} {a : Nat} (has : s.hasHold id kind a = true) :
    s.Carries (s.removeHold id kind a) where
  lots h := State.LotsSound.onLot (s := { s with holds := s.holds.filter fun r => !r.is id kind a }) (h.of_lots rfl)
    (fun _ _ => rfl) fun _ _ sound => sound.of_same
  holds h := h.lower has
  configState := rfl
  tables := rfl
  store := rfl
  stamp := rfl
  terms _ := State.onLot_map (s := { s with holds := s.holds.filter fun r => !r.is id kind a }) fun _ => rfl

theorem hclrOwner_carries (p : Port) : OwnerCarries readHclr (hclrOwner p) := by
  intro f a s reads
  have h := Carries.refl s
  unfold hclrOwner
  split
  · exact h
  · rename_i l known
    refine .of_outcomes (fun _ => h) fun _ => .of_outcomes (fun _ => h) fun has =>
      .of_outcomes (fun _ => h) fun fits => ?_
    have cleared := (Carries.removeHold (by simpa using has)).nlot a.lot .holdCleared (some (a.kind, a.arg))
    have disposed : s.Carries (((s.removeHold a.lot a.kind a.arg).nlot a.lot .holdCleared
        (some (a.kind, a.arg))).dispose a.lot a.disposition) := by
      have sampled (acts : a.disposition ≠ .none) (m : Lot)
          (known' : ((s.removeHold a.lot a.kind a.arg).nlot a.lot .holdCleared (some (a.kind, a.arg))).lot a.lot = some m)
          (sound : m.Sound) : m.Closed := by
        have qa : a.kind = .qa := (readHclr_disposition reads).resolve_left acts
        have sampling : l.state = .sampling := by
          by_contra other
          exact fits ⟨qa, by simp [dispositionFits, other, acts]⟩
        have removed : (s.removeHold a.lot a.kind a.arg).lot a.lot = some { l with holdCount := l.holdCount - 1 } :=
          State.onLot_lot_same { s with holds := s.holds.filter fun r => !r.is a.lot a.kind a.arg }
            (fun l => { l with holdCount := l.holdCount - 1 }) known fun _ => rfl
        rw [State.nlot_lot, removed] at known'
        obtain rfl := Option.some.inj known'
        exact sound.isClosed (.inr (.inl sampling))
      cases acts : a.disposition with
      | none => exact cleared
      | accept =>
        exact (cleared.onLot a.lot (fun l => { l with state := .accepted }) fun m known' sound =>
          sound.of_account rfl fun _ => sampled (by simp [acts]) m known' sound).nlot a.lot .accepted
      | resample =>
        exact (cleared.onLot a.lot (fun l => { l with state := .tested, rejects := 0 }) fun m known' sound =>
          sound.of_account rfl fun _ => sampled (by simp [acts]) m known' sound).nlot a.lot .resample
    exact Carries.of_ite (fun _ => disposed.becomeUnheld _ _) fun _ => disposed

theorem hovcOwner_carries {read : List Byte → Checked Id} : OwnerCarries read hovcOwner := by
  intro f id s _
  have h := Carries.refl s
  unfold hovcOwner
  split
  · exact h
  · have cleared := (h.onLot id (fun l => { l with overflow := false }) fun _ _ sound => sound.of_same).nlot id
      .overflowCleared
    exact .of_outcomes (fun _ => h) fun _ => Carries.of_ite (fun _ => cleared.becomeUnheld _ _) fun _ => cleared

end Sys2Proof.Machine
end

section
/-! What the owners of the cell, equipment, run, release and configuration requests do to the lots and the settings
(chapters 2, 3, 5, 6, 7, 9, 10, 11). -/

namespace Sys2Proof.Machine

-- one theorem at a time: many at once, each with a thread of its own, can exceed the memory limit
set_option Elab.async false

open State (Carries Does)

/-! ## The floor host's cell requests (chapters 3 and 5) -/

theorem cdckConfigured_carries {read : List Byte → Checked (CellNo × Id × Id)} : OwnerCarries read cdckConfigured := by
  intro f a s _
  have h := Carries.refl s
  refine .of_outcomes (fun _ => h) fun _ => .of_outcomes (fun _ => h) fun _ => ?_
  split
  · exact h
  · exact (((h.onEquip _ _).onEquip _ _).onCell _ _).enterOffer _

theorem cundOwner_carries {read : List Byte → Checked CellNo} : OwnerCarries read cundOwner := by
  intro f c s _
  have h := Carries.refl s
  refine .of_outcomes (fun _ => h) fun _ => ?_
  cases state : (s.cell c).state with
  | idle | paused | lost | fault => exact h.undock _ c
  | vacant | offer | confirm | preparing | running | stopping | closing => exact h

theorem crdkOwner_carries {read : List Byte → Checked CellNo} : OwnerCarries read crdkOwner := by
  intro f c s _
  have h := Carries.refl s
  refine .of_outcomes (fun _ => h) fun _ => ?_
  split
  · exact h.enterOffer c
  · exact h.enterOffer c
  · exact h

theorem cmodOwner_carries {read : List Byte → Checked (CellNo × Mode)} : OwnerCarries read cmodOwner := fun _ _ s _ =>
  have h := Carries.refl s
  .of_outcomes (fun _ => h) fun _ => .of_outcomes (fun _ => h) fun _ => .of_outcomes (fun _ => h) fun _ =>
    (h.moveCell _ _).serve _ _

theorem csenOwner_carries {read : List Byte → Checked (CellNo × Fin 8)} : OwnerCarries read csenOwner := fun _ _ s _ =>
  have h := Carries.refl s
  .of_outcomes (fun _ => h) fun _ => .of_outcomes (fun _ => h) fun _ => .of_outcomes (fun _ => h) fun _ =>
    (h.onCell _ _).serve _ _

theorem cunbOwner_carries {read : List Byte → Checked CellNo} : OwnerCarries read cunbOwner := by
  intro f c s _
  have h := Carries.refl s
  refine .of_outcomes (fun _ => h) fun _ => ?_
  have unbound (id : Id) := (h.onCell c fun x => { x with preparation := none }).unbind (some hostPort) c id
    fun x => { x with state := .idle }
  dsimp only
  split
  · exact unbound _
  · exact unbound _
  · exact h

/-! ## Equipment (chapters 2, 3 and 6) -/

theorem eannOwner_carries {read : List Byte → Checked Ability} (p : Port) : OwnerCarries read (eannOwner p) := by
  intro f ability s _
  have h := Carries.refl s
  unfold eannOwner
  split
  · refine .of_outcomes (fun _ => h) fun _ => ?_
    dsimp only
    split
    · exact (h.setEntry _ _).disturb _ _ _
    · exact h.setEntry _ _
  · unfold State.learn
    split
    · exact .of_outcomes (fun _ => h.setEntry _ _) fun _ => h
    · exact h

theorem eablOwner_carries {read : List Byte → Checked (CellNo × Ability)} : OwnerCarries read eablOwner := by
  intro f a s _
  have h := Carries.refl s
  have replaced : s.Carries (s.setAbility f.source a.2) := h.onEquip _ _
  refine .of_outcomes (fun _ => h) fun _ => .of_outcomes (fun _ => h) fun _ => ?_
  split
  · have marked := replaced.onCell a.1 fun x =>
      { x with negotiation := some (Negotiation.report ‹_› (decide ((s.cell a.1).handler = some f.source))) }
    exact Carries.of_ite (fun _ => marked.reported _) fun _ => marked
  · exact replaced.enterOffer _ _ _
  · exact h

theorem ecnfOwner_carries {read : List Byte → Checked (CellNo × Capability)} (p : Port) :
    OwnerCarries read (ecnfOwner p) := by
  intro f a s _
  have h := Carries.refl s
  refine .of_outcomes (fun _ => h) fun _ => ?_
  dsimp only
  split
  · refine .of_outcomes (fun _ => h.enterFault _ _) fun _ => ?_
    have marked := h.onCell a.1 fun x =>
      { x with negotiation := some (Negotiation.accept ‹_› (decide ((s.cell a.1).handler = some f.source))) }
    exact Carries.of_ite (fun _ => marked.formed _ _ _) fun _ => marked
  · exact h

/-- A program reported loaded, or a load that has failed, ends the cell's load request (R95, R96). -/
theorem State.Carries.programLoaded {s : State} (src : Option Port) (c : CellNo) (id program : Id) :
    s.Carries (s.programLoaded src c id program) := by
  have loaded := ((Carries.refl s).onEquip id fun e =>
    { e with ability := match e.ability with
      | .tester a => .tester { a with program := program }
      | .handler a => .handler a }).onCell c fun x => { x with loadRequest := none }
  exact .of_ite (fun _ => ((loaded.onCell c _).testPreparation src c).serve src c) fun _ => loaded

theorem State.Carries.programRefused {s : State} (src : Option Port) (c : CellNo) :
    s.Carries (s.programRefused src c) :=
  have ended := (Carries.refl s).onCell c fun x => { x with loadRequest := none }
  .of_ite (fun _ => ended.loadFailed src c) fun _ => ended

theorem epldOwner_carries {read : List Byte → Checked (CellNo × Id)} (p : Port) : OwnerCarries read (epldOwner p) := by
  intro f a s _
  unfold epldOwner
  dsimp only
  split
  · exact .refl s
  · exact .refl s
  · exact Carries.of_ite (fun _ => .programLoaded _ _ _ _) fun _ => .programRefused _ _

theorem eldfOwner_carries {read : List Byte → Checked (CellNo × Id)} (p : Port) : OwnerCarries read (eldfOwner p) := by
  intro f a s _
  unfold eldfOwner
  dsimp only
  split
  · exact .refl s
  · exact .of_outcomes (fun _ => .programRefused _ _) fun _ => .refl s

theorem State.Carries.temperatureReached {s : State} (src : Option Port) (c : CellNo) :
    s.Carries (s.temperatureReached src c) := by
  have reached := (Carries.refl s).onCell c fun x => { x with thermal := { x.thermal with reached := true, soak := 0 } }
  unfold State.temperatureReached
  dsimp only
  split
  · exact .of_ite (fun _ => ((reached.onCell c _).testPreparation src c).serve src c) fun _ => reached
  · exact reached

theorem etmpOwner_carries {read : List Byte → Checked (CellNo × Int)} (p : Port) : OwnerCarries read (etmpOwner p) := by
  intro f a s _
  have h := Carries.refl s
  unfold etmpOwner
  dsimp only
  split
  · exact h
  · exact .of_outcomes (fun _ => h) fun _ => Carries.of_ite (fun _ => h) fun _ => .temperatureReached _ _

/-! ## ERND and EBIN (chapters 6 and 7) -/

theorem erndOwner_carries {read : List Byte → Checked ErndFields} (p : Port) : OwnerCarries read (erndOwner p) := by
  intro f a s _
  have h := Carries.refl s
  unfold erndOwner
  split
  · exact h
  · exact h
  · exact .of_outcomes (fun _ => h) fun _ => .of_outcomes (fun _ => h) fun _ => .of_outcomes (fun _ => h) fun _ =>
      h.evaluateEnd _ _ _ _ _

/-- The counting of units leaves a lot's terms. -/
theorem Tally.entries_terms (plan : BinPlan) (es : List BinEntry) (t : Tally) :
    (Tally.entries plan t es).lot.terms = t.lot.terms := by
  have stored (l : Lot) (b : Fin 16) : (l.store plan b).terms = l.terms := by
    obtain ⟨_, _, e⟩ := l.store_cases plan b
    rw [e]
    rfl
  have first (t : Tally) (site : Fin 8) (b : Fin 16) : (t.unitFirst plan site b).lot.terms = t.lot.terms := by
    unfold Tally.unitFirst
    split
    · exact stored _ b
    · rfl
  have one (e : BinEntry) (t : Tally) : (Tally.unit plan e t).lot.terms = t.lot.terms := by
    unfold Tally.unit
    split
    · split
      · exact first ..
      · unfold Tally.unitRetest
        split
        · exact stored _ e.bin
        · rfl
    · exact first ..
  have again (e : BinEntry) (n : Nat) (t : Tally) : (Nat.repeat (Tally.unit plan e) n t).lot.terms = t.lot.terms := by
    induction n with
    | zero => rfl
    | succ n ih => exact (one e _).trans ih
  induction es generalizing t with
  | nil => rfl
  | cons e es ih => exact (ih _).trans (again e _ t)

/-- The BOUND lot found takes the units counted on it (R120). -/
theorem State.Carries.tallied {s : State} {l : Lot} (known : s.lot l.id = some l) (bound : l.state = .bound) (r : Run)
    (plan : BinPlan) (es : List BinEntry) :
    s.Carries (s.onLot l.id fun _ => (Tally.entries plan ⟨l, r, 0, 0⟩ es).lot) := by
  have terms := Tally.entries_terms plan es ⟨l, r, 0, 0⟩
  have keeps := (Tally.entries_keeps plan es ⟨l, r, 0, 0⟩).lot
  have found {m : Lot} (known' : s.lot l.id = some m) : l = m := Option.some.inj (known.symm.trans known')
  refine ⟨⟨fun h => ?_, fun h => ?_⟩, ⟨rfl, rfl, rfl, rfl⟩, fun h => ?_⟩
  · refine h.onLot (fun m known' => found known' ▸ keeps.id) fun m known' sound => ?_
    have counted : Tally.Sound ⟨l, r, 0, 0⟩ := ⟨found known' ▸ sound, bound⟩
    exact (counted.entries plan es).lot
  · refine h.onLot (fun _ _ _ => keeps.id) fun m mem at_l => ?_
    rw [keeps.holdCount, h.count m mem, at_l, ← h.count l (State.lot_mem known)]
  · exact h.map_onLot fun m known' => found known' ▸ terms

namespace State.Carries

variable {r s : State}

theorem checkExcess (h : r.Carries s) (src : Option Port) (id : Id) (before after : Nat) :
    r.Carries (s.checkExcess src id before after) := of_ite (fun _ => h.placeHold ..) fun _ => h

theorem runningChecks (h : r.Carries s) (src : Option Port) (id : Id) : r.Carries (s.runningChecks src id) := by
  unfold State.runningChecks
  split
  · exact of_ite (fun _ => h.checkRatios _ _) fun _ => h
  · exact h

theorem removeSite (h : r.Carries s) (src : Option Port) (c : CellNo) (id : Id) (x : Run) (site : Fin 8)
    (top : Nat) : r.Carries (s.removeSite src c id x site top) :=
  have told := (h.onCell c fun x => { x with active := SiteSet.drop x.active site }).notifyMembers c _
  of_ite (fun _ => told.placeHold ..) fun _ => told

theorem checkSites (h : r.Carries s) (src : Option Port) (c : CellNo) (id : Id) :
    r.Carries (s.checkSites src c id) := by
  unfold State.checkSites
  split
  · refine of_ite (fun _ => ?_) fun _ => h
    split
    · exact h.removeSite _ _ _ _ _ _
    · exact h
  · exact h

end State.Carries

theorem ebinOwner_carries {read : List Byte → Checked EbinFields} (p : Port) : OwnerCarries read (ebinOwner p) := by
  intro f a s _
  have h := Carries.refl s
  unfold ebinOwner
  split
  · exact h
  · rename_i l known
    split
    · exact h
    · rename_i c _
      refine .of_outcomes (fun _ => h) fun bound => ?_
      have bound : l.state = .bound := by
        by_contra other
        exact bound (.inl other)
      split
      · exact h
      · rename_i x _
        refine .of_outcomes (fun _ => h) fun _ => ?_
        split
        · exact h
        · have tallied := Carries.tallied (State.lot_own known) bound x (s.planOf l) a.entries
          exact ((((tallied.onCell c _).checkExcess _ _ _ _).runningChecks _ _).checkSites _ _ _).testClose _ c

/-! ## QRES, RLSE, STAK and SARM (chapter 9) -/

/-- A lot of SAMPLING or ACCEPTED may be moved on: its account is closed (R59). -/
theorem State.Carries.onPast {r s : State} (h : r.Carries s) {id : Id} {l : Lot} (known : s.lot id = some l)
    (past : l.state.PastTest) (f : Lot → Lot) (account : ∀ l, (f l).account = l.account := by exact fun _ => rfl)
    (terms : ∀ l, (f l).terms = l.terms := by exact fun _ => rfl)
    (count : ∀ l, (f l).holdCount = l.holdCount := by exact fun _ => rfl) : r.Carries (s.onLot id f) :=
  h.onLot id f (fun m known' sound => sound.of_account (account m) fun _ =>
    sound.isClosed (Option.some.inj (known.symm.trans known') ▸ past)) terms count

theorem qresOwner_carries {read : List Byte → Checked (Id × Nat × Nat)} : OwnerCarries read qresOwner := by
  intro f a s _
  have h := Carries.refl s
  unfold qresOwner
  dsimp only
  split
  · exact h
  · rename_i l known
    refine .of_outcomes (fun _ => h) fun sampling => .of_outcomes (fun _ => h) fun _ => .of_outcomes (fun _ => h) fun _ => ?_
    have past : l.state.PastTest := .inr (.inl (by
      by_contra other
      exact sampling (.inl other)))
    have known := State.lot_own known
    have judged := h.onPast known past fun l => { l with rejects := a.2.2, samplePending := false }
    have known' := s.onLot_lot_same (fun l => { l with rejects := a.2.2, samplePending := false }) known fun _ => rfl
    unfold State.judgeSample
    dsimp only
    split
    · exact (judged.onPast known' past fun l => { l with state := .accepted }).nlot l.id .accepted
    · exact judged.placeHold ..

theorem rlseOwner_carries {read : List Byte → Checked Id} : OwnerCarries read rlseOwner := by
  intro f id s _
  have h := Carries.refl s
  unfold rlseOwner
  split
  · exact h
  · rename_i l known
    refine .of_outcomes (fun _ => h) fun accepted => .of_outcomes (fun _ => h) fun _ => .of_outcomes (fun _ => h) fun _ => ?_
    have queued : s.Carries { s with shipments := s.shipments ++ [s.shipmentOf l] } := h.of_records
    have released := (queued.onPast known (.inr (.inr (.inl (not_not.mp accepted)))) fun l =>
      { l with state := .released }).nlot id .released
    exact Carries.of_ite (fun _ => released.attentionTest) fun _ => released

theorem stakOwner_does (i : Instr) {read : List Byte → Checked Unit} : OwnerDoes i read stakOwner := by
  intro f _ s _
  unfold stakOwner
  split
  · rename_i x _
    have dropped : s.Carries (s.dropShipment x.lot) := (Carries.refl s).of_records
    have retired : (s.dropShipment x.lot).Does i ((s.dropShipment x.lot).retire x.lot) := by
      unfold State.retire
      split
      · exact .freeLot _ _
      · exact .refl _
    exact retired.after dropped
  · exact .refl s

theorem sarmOwner_carries {read : List Byte → Checked Unit} : OwnerCarries read sarmOwner := fun _ _ s _ =>
  have armed : s.Carries { s with armed := true } := (Carries.refl s).of_records
  armed.attentionTest

/-! ## Clock and configuration (chapters 10 and 11) -/

theorem clksOwner_carries {read : List Byte → Checked (Option Nat)} : OwnerCarries read clksOwner := by
  intro f a s _
  have h := Carries.refl s
  cases a with
  | none => exact h
  | some m =>
    have loaded : s.Carries { s with clock := { s.clock with minute := m, seconds := 0 } } := h.of_records
    exact .of_outcomes (fun _ => h) fun _ => loaded.evaluateGates _

theorem wprdOwner_does (p : Port) {read : List Byte → Checked (Fin 32 × Product)} :
    OwnerDoes (.wprd p) read wprdOwner := fun _ _ s _ =>
  have h := Does.refl s
  .of_outcomes (fun _ => h) fun _ => .of_outcomes (fun _ => h) fun _ => .withTables _ ⟨p, .inl rfl⟩

theorem wbplOwner_does (p : Port) {read : List Byte → Checked (Fin 8 × BinPlan)} :
    OwnerDoes (.wbpl p) read wbplOwner := by
  intro f a s _
  refine .of_outcomes (fun _ => .refl s) fun _ => ?_
  dsimp only
  split
  · exact .refl s
  · exact .withTables _ ⟨p, .inr (.inl rfl)⟩

theorem wparOwner_does (p : Port) {read : List Byte → Checked Parameters} : OwnerDoes (.wpar p) read wparOwner := by
  intro f new s _
  have replaced : s.Does (.wpar p) { s with tables := { s.tables with parameters := new } } :=
    .withTables _ ⟨p, .inr (.inr (.inl rfl))⟩
  have h := Carries.refl { s with tables := { s.tables with parameters := new } }
  have recomputed {c : Prop} [Decidable c] := Carries.of_ite (c := c) (fun _ => h) fun _ => h.recompute
  exact replaced.andThen (.of_ite (fun _ => recomputed) fun _ => recomputed.periodChanged _)

theorem wwinOwner_does (p : Port) {read : List Byte → Checked (Fin 4 × Window)} :
    OwnerDoes (.wwin p) read wwinOwner := by
  intro f a s _
  have h := Does.refl (i := .wwin p) s
  have replaced : s.Does (.wwin p) { s with tables := { s.tables with windows := s.tables.windows.set a.1 a.2 } } :=
    .withTables _ ⟨p, .inr (.inr (.inr rfl))⟩
  exact .of_outcomes (fun _ => h) fun _ => .of_outcomes (fun _ => h) fun _ =>
    replaced.andThen ((Carries.refl _).evaluateGates _)

theorem crdyOwner_does (p : Port) {read : List Byte → Checked Unit} : OwnerDoes (.crdy p) read crdyOwner := by
  intro f _ s _
  unfold crdyOwner
  split
  · exact .refl s
  · exact .of_settings rfl rfl (fun _ => .inr (.inr (.inr ⟨p, rfl⟩))) (absurd rfl) (absurd rfl) rfl

theorem csavOwner_does (p : Port) {read : List Byte → Checked Unit} : OwnerDoes (.csav p) read csavOwner := fun _ _ s _ =>
  .of_outcomes (fun _ => .of_settings rfl rfl (absurd rfl) (absurd rfl) (fun _ => .inr (.inr ⟨p, rfl⟩)) rfl)
    fun _ => .refl s

/-! ## Requests that leave the records -/

/-- An owner that changes nothing carries the lots. -/
theorem OwnerCarries.of_query {α : Type} {read : List Byte → Checked α} {owner : Owner α}
    (query : ∀ f a s, (owner f a s).1 = s) : OwnerCarries read owner := fun f a s _ => by
  rw [query]
  exact .refl s

theorem pstaOwner_carries {read : List Byte → Checked Unit} (p : Port) : OwnerCarries read (pstaOwner p) :=
  fun _ _ s _ => (Carries.refl s).onPort p _

theorem qlotSummaryOwner_state (f : Frame) (id : Id) (s : State) : (qlotSummaryOwner f id s).1 = s := by
  unfold qlotSummaryOwner
  split <;> rfl

theorem qlotCountsOwner_state (f : Frame) (id : Id) (s : State) : (qlotCountsOwner f id s).1 = s := by
  unfold qlotCountsOwner
  split <;> rfl

theorem qlotHoldsOwner_state (f : Frame) (a : Id × Nat) (s : State) : (qlotHoldsOwner f a s).1 = s := by
  unfold qlotHoldsOwner
  split <;> rfl

theorem qeqpOwner_state (f : Frame) (id : Id) (s : State) : (qeqpOwner f id s).1 = s := by
  unfold qeqpOwner
  split <;> rfl

end Sys2Proof.Machine
end

section
/-! Every command keeps the lot table and the hold list in order and changes only what is its own. -/

namespace Sys2Proof.Machine

-- one theorem at a time: many at once, each with a thread of its own, can exceed the memory limit
set_option Elab.async false

open State (Carries Does KeepsLots)

/-! ## The events of a tick -/

namespace State.KeepsLots

variable {s t : State}

theorem of_records (lots : t.lots = s.lots := by rfl) (holds : t.holds = s.holds := by rfl) : s.KeepsLots t :=
  ⟨fun h => h.of_lots lots, fun h => h.of_records lots holds⟩

theorem of_empty (lots : t.lots = [] := by rfl) (holds : t.holds = [] := by rfl) : s.KeepsLots t :=
  ⟨fun _ => .empty lots, fun _ => .empty lots holds⟩

theorem minute (s : State) : s.KeepsLots s.minute := by
  have stamped : s.KeepsLots (State.recompute { s with clock := { s.clock with
    stamp := s.clock.stamp + 1, minute := nextMinute s.tables.parameters.period s.clock.minute } }) := of_records
  have h := Carries.refl (State.recompute { s with clock := { s.clock with
    stamp := s.clock.stamp + 1, minute := nextMinute s.tables.parameters.period s.clock.minute } })
  have gated {c : Prop} [Decidable c] := Carries.of_ite (c := c) (fun _ => h) fun _ => h.evaluateGates none
  exact stamped.trans (Carries.of_ite (fun _ => gated.onPort hostPort _) fun _ => gated).toKeepsLots

theorem takeDue (s : State) (d : Due) : s.KeepsLots (s.takeDue d) := by
  have h := Carries.refl s
  cases d with
  | negotiation c => exact (Carries.of_ite (fun _ => h.enterFault c _) fun _ => h).toKeepsLots
  | load c => exact (Carries.of_ite (fun _ => h.loadFailed none c) fun _ => h).toKeepsLots
  | settle c => exact (Carries.of_ite (fun _ => h.settleFailed none c) fun _ => h).toKeepsLots
  | close c => exact (Carries.of_ite (fun _ => h.closeExpired none c) fun _ => h).toKeepsLots
  | soak c => exact (h.endSoak c).toKeepsLots
  | stale i =>
    simp only [State.takeDue, State.goStale]
    split
    · refine (Carries.of_ite (fun _ => ?_) fun _ => h).toKeepsLots
      split
      · exact (h.setEntry i _).disturb none _ _
      · exact h.setEntry i _
    · exact .refl s
  | removal i =>
    simp only [State.takeDue, State.removeEntry]
    split
    · exact (Carries.of_ite (fun _ => h.setEntry i _) fun _ => h).toKeepsLots
    · exact .refl s
  | minute => exact .minute s
  | floorReset => exact .of_empty

theorem settle (s : State) : s.KeepsLots s.settle :=
  List.foldlRecOn (motive := s.KeepsLots) _ _ of_records fun _ h d _ => h.trans (.takeDue _ d)

theorem takeListed (s : State) (d : Due) : s.KeepsLots (s.takeListed d) := by
  unfold State.takeListed
  split
  · exact of_records (t := { s with due := s.due.erase d }) |>.trans (.takeDue _ d)
  · exact .refl s

end State.KeepsLots

/-! ## The examination of a request (R8) -/

namespace State.Does

variable {i : Instr} {s t : State} {α : Type} {read : List Byte → Checked α} {owner : Owner α}

theorem answer (h : s.Does i t) (p : Port) (r : Option Req) (reply : Reply) : s.Does i (t.answer p r reply) :=
  h.andThen ((Carries.refl t).onPort p _)

theorem checkFields (does : OwnerDoes i read owner) (p : Port) (r : Req) (f : Frame) :
    s.Does i (s.checkFields p r read owner f) :=
  State.checkFields_keeps (s.Does i) (fun h ports => h.andThen ((Carries.refl _).of_onlyPorts ports)) (.refl s)
    fun a reads => does f a s reads

theorem checkKnown (does : OwnerDoes i read owner) (p : Port) (r : Req) (f : Frame) (j : Position) (e : Entry) :
    s.Does i (s.checkKnown p r read owner f j e) := by
  have refreshed := (Carries.refl s).setEntry j (some (e.refreshed p))
  unfold State.checkKnown
  dsimp only
  split
  · exact (of_carries (refreshed.reportReturn _ _)).answer ..
  · exact (((does _ _ _ ‹_›).andThen ((Carries.refl _).reportReturn _ _)).after refreshed).answer ..

theorem checkSender (does : OwnerDoes i read owner) (p : Port) (r : Req) (f : Frame) :
    s.Does i (s.checkSender p r read owner f) := by
  refine of_ite (fun _ => (refl s).answer ..) fun _ => ?_
  split
  · exact of_ite (fun _ => checkFields does p r f) fun _ => (refl s).answer ..
  · exact of_ite (fun _ => (refl s).answer ..) fun _ =>
      of_ite (fun _ => checkFields does p r f) fun _ => checkKnown does p r f _ _

theorem examine (does : OwnerDoes i read owner) (p : Port) (r : Req) (v : Service) :
    s.Does i (s.examine p r read owner v) :=
  of_ite (fun _ => of_carries ((Carries.refl s).onPort p _)) fun _ => of_ite (fun _ => (refl s).answer ..) fun _ =>
    of_ite (fun _ => of_ite (fun _ => (refl s).answer ..) fun _ => checkFields does p r _)
      fun _ => checkSender does p r _

theorem request (does : OwnerDoes i read owner) (p : Port) (r : Req) (mine : List Byte → Bool) :
    s.settle.Does i (s.request p r mine read owner) := by
  unfold State.request
  dsimp only
  split
  · exact of_ite (fun _ => examine does p r _) fun _ => refl _
  · exact refl _

/-! ## The events of the part -/

theorem powerOn (cut : WriteCut) : s.Does (.powerOnReset cut) (s.powerOn cut) where
  toKeepsLots := .of_empty
  configState _ := .inl ⟨cut, rfl⟩
  tables _ := .inl ⟨cut, rfl⟩
  store _ := .inl ⟨cut, rfl⟩
  stamp _ := ⟨cut, rfl⟩
  stays _ _ _ l' mem' := absurd mem' List.not_mem_nil

theorem endLoad (reply : StoreReply) : s.Does (.startUpLoad reply) (s.endLoad reply) := by
  have loaded (tables : Tables) (state : ConfigState) : s.Does (.startUpLoad reply)
      { s.onPorts PortUnit.loadEnds with tables := tables, configState := state } :=
    of_settings rfl rfl (fun _ => .inr (.inl ⟨reply, rfl⟩)) (fun _ => .inr (.inl ⟨reply, rfl⟩)) (absurd rfl) rfl
  refine (of_ite (c := (s.onPorts PortUnit.loadEnds).store.loads reply = true) (fun _ => loaded _ _)
    fun _ => loaded _ _).andThen ((Carries.refl _).periodChanged none)

theorem endReattempt (reply : StoreReply) (f : Frame) :
    s.Does (.storeLoadReattempt reply) (s.endReattempt reply f) := by
  have taken (u : State) : u.Does (.storeLoadReattempt reply) (u.resumeWaiting f) := by
    unfold State.resumeWaiting
    split
    · exact checkFields (lentConfigured_does _) ..
    · exact checkFields (cdckConfigured_carries.does _) ..
    · exact refl u
  refine of_ite (fun _ => ?_) fun _ => of_carries (Carries.refl s).of_records
  have resumed := (taken _).after ((Carries.refl
    { s with storeJob := none, tables := s.store.tables, configState := .configured }).periodChanged (some hostPort))
  exact
    { lots := fun h => resumed.lots (h.of_lots rfl)
      holds := fun h => resumed.holds (h.of_records rfl rfl)
      configState := fun _ => .inr (.inr (.inl ⟨reply, rfl⟩))
      tables := fun _ => .inr (.inr (.inl ⟨reply, rfl⟩))
      store := resumed.store
      stamp := resumed.stamp
      stays := fun h => resumed.stays (h.of_lots rfl) }

theorem endWrite (result : ReadBack) : s.Does (.storeWrite result) (s.endWrite result) := by
  have written (store : Store) : s.Does (.storeWrite result) { s with storeJob := none, store := store } :=
    of_settings rfl rfl (absurd rfl) (absurd rfl) (fun _ => .inr (.inl ⟨result, rfl⟩)) rfl
  cases result <;> exact (written _).answer ..

end State.Does

/-! ## Every command and every step -/

/-- A request's row does what is its own once the listed events are taken. -/
theorem exec_request_does {i : Instr} {p : Port} {r : Req} {mine : List Byte → Bool} {s t : State}
    (row : requestOf i = some (p, r, mine)) (next : exec i s = .next t) : s.settle.Does i t := by
  have owned {α : Type} {read : List Byte → Checked α} {owner : Owner α} (does : OwnerDoes i read owner)
      (runs : exec i s = .next (s.request p r mine read owner)) : s.settle.Does i t := by
    rw [runs] at next
    injection next with e
    exact e ▸ .request does p r mine
  have carried {α : Type} {read : List Byte → Checked α} {owner : Owner α} (carries : OwnerCarries read owner)
      (runs : exec i s = .next (s.request p r mine read owner)) : s.settle.Does i t := owned (carries.does i) runs
  cases i with
  | lent _ => cases row; exact owned (afterReattempt_does (lentConfigured_does _)) rfl
  | lrem _ => cases row; exact owned (lremOwner_does _) rfl
  | lpri _ => cases row; exact owned (lpriOwner_does _) rfl
  | lsht _ => cases row; exact carried lshtOwner_carries rfl
  | qlotSummary _ => cases row; exact carried (.of_query qlotSummaryOwner_state) rfl
  | qlotCounts _ => cases row; exact carried (.of_query qlotCountsOwner_state) rfl
  | qlotHolds _ => cases row; exact carried (.of_query qlotHoldsOwner_state) rfl
  | qlotList _ => cases row; exact carried (owner := qlotListOwner) (.of_query fun _ _ _ => rfl) rfl
  | hold _ => cases row; exact carried (holdOwner_carries _) rfl
  | hclr _ => cases row; exact carried (hclrOwner_carries _) rfl
  | hovc _ => cases row; exact carried hovcOwner_carries rfl
  | cdck _ => cases row; exact owned (afterReattempt_does (cdckConfigured_carries.does _)) rfl
  | cund _ => cases row; exact carried cundOwner_carries rfl
  | crdk _ => cases row; exact carried crdkOwner_carries rfl
  | cmod _ => cases row; exact carried cmodOwner_carries rfl
  | csen _ => cases row; exact carried csenOwner_carries rfl
  | qcel _ => cases row; exact carried (owner := qcelOwner) (.of_query fun _ _ _ => rfl) rfl
  | cunb _ => cases row; exact carried cunbOwner_carries rfl
  | qeqp _ => cases row; exact carried (.of_query qeqpOwner_state) rfl
  | qeqpList _ => cases row; exact carried (owner := qeqpListOwner) (.of_query fun _ _ _ => rfl) rfl
  | stak _ => cases row; exact owned (stakOwner_does _) rfl
  | sarm _ => cases row; exact carried sarmOwner_carries rfl
  | qres _ => cases row; exact carried qresOwner_carries rfl
  | rlse _ => cases row; exact carried rlseOwner_carries rfl
  | clks _ => cases row; exact carried clksOwner_carries rfl
  | wprd _ => cases row; exact owned (wprdOwner_does _) rfl
  | wbpl _ => cases row; exact owned (wbplOwner_does _) rfl
  | wpar _ => cases row; exact owned (wparOwner_does _) rfl
  | wwin _ => cases row; exact owned (wwinOwner_does _) rfl
  | crdy _ => cases row; exact owned (crdyOwner_does _) rfl
  | csav _ => cases row; exact owned (csavOwner_does _) rfl
  | frst _ => cases row; exact carried (owner := frstOwner) (.of_query fun _ _ _ => rfl) rfl
  | eann _ => cases row; exact carried (eannOwner_carries _) rfl
  | eabl _ => cases row; exact carried eablOwner_carries rfl
  | ecnf _ => cases row; exact carried (ecnfOwner_carries _) rfl
  | epld _ => cases row; exact carried (epldOwner_carries _) rfl
  | eldf _ => cases row; exact carried (eldfOwner_carries _) rfl
  | etmp _ => cases row; exact carried (etmpOwner_carries _) rfl
  | ernd _ => cases row; exact carried (erndOwner_carries _) rfl
  | ebin _ => cases row; exact carried (ebinOwner_carries _) rfl
  | sens _ => cases row; exact carried (owner := sensOwner _) (.of_query fun _ _ _ => rfl) rfl
  | psta _ => cases row; exact carried (pstaOwner_carries _) rfl
  | _ => cases row

/-- A second changes no record of this part: it only counts, and lists what has come due. -/
theorem State.Carries.second (s : State) : s.Carries s.second :=
  .of_records (.refl s) (by simp only [State.second]) (by simp only [State.second]) (by simp only [State.second])
    (by simp only [State.second]) (by simp only [State.second]) (by simp only [State.second])

/-- In a quiet state no listed event is taken. -/
theorem State.takeListed_of_quiet {s : State} (quiet : s.Quiet) (d : Due) : s.takeListed d = s := by
  have none : s.due = [] := quiet
  exact if_neg (by simp [none])

/-- A command takes listed events first, in a quiet state none, and then does what is its own. -/
theorem exec_does {i : Instr} {s t : State} (next : exec i s = .next t) :
    ∃ u, s.KeepsLots u ∧ (s.Quiet → u = s) ∧ u.Does i t := by
  have settled (h : s.settle.Does i t) : ∃ u, s.KeepsLots u ∧ (s.Quiet → u = s) ∧ u.Does i t :=
    ⟨_, .settle s, State.settle_of_quiet, h⟩
  have listed (d : Due) (e : s.takeListed d = t) : ∃ u, s.KeepsLots u ∧ (s.Quiet → u = s) ∧ u.Does i t :=
    ⟨_, .takeListed s d, fun quiet => State.takeListed_of_quiet quiet d, e ▸ .refl _⟩
  have h := Carries.refl s.settle
  cases row : requestOf i with
  | some request => exact settled (exec_request_does row next)
  | none =>
    cases i with
    | powerOnReset cut => injection next with e; exact ⟨s, .refl s, fun _ => rfl, e ▸ .powerOn cut⟩
    | floorReset | minuteTick | entryStale _ | soakEnd _ | negotiationDeadlineExpiry _ | loadDeadlineExpiry _
      | settleDeadlineExpiry _ | closeDeadlineExpiry _ =>
      injection next with e
      exact listed _ e
    | entryRemoval j =>
      injection next with e
      by_cases later : Due.stale j ∈ s.due
      · rw [if_pos later] at e
        exact ⟨s, .refl s, fun _ => rfl, e ▸ .refl s⟩
      · rw [if_neg later] at e
        exact listed _ e
    | startUpLoad reply =>
      injection next with e
      exact settled (e ▸ .of_ite (fun _ => .endLoad reply) fun _ => .refl _)
    | storeLoadReattempt reply =>
      injection next with e
      refine settled (e ▸ ?_)
      split
      · exact .endReattempt reply _
      · exact .refl _
    | storeWrite result =>
      injection next with e
      exact settled (e ▸ .of_ite (fun _ => .endWrite result) fun _ => .refl _)
    | frameComplete p _ | lengthBelow6 p _ | gapAbort p | receivedByte p _ =>
      injection next with e
      exact settled (e ▸ .of_carries (h.onPort p _))
    | frameSent p =>
      injection next with e
      exact settled (e ▸ .of_carries (.of_ite (fun _ => (h.onPort p PortUnit.sent).of_records) fun _ => h.onPort p PortUnit.sent))
    | secondsTick => injection next with e; exact settled (e ▸ .of_carries (.second _))
    | unknownCode p =>
      injection next with e
      refine settled (e ▸ .of_carries ?_)
      split
      · exact .of_ite (fun _ => .of_ite (fun _ => h.onPort p _) fun _ => h.onPort p _) fun _ => h
      · exact h
    | _ => cases row

/-- A step keeps the lot table and the hold list in order. -/
theorem step_keepsLots {s t : State} (next : step s = .next t) : s.KeepsLots t := by
  unfold step at next
  split at next
  · injection next with e
    exact e ▸ .refl s
  · rename_i i rest _
    obtain ⟨u, first, -, does⟩ := exec_does next
    exact (KeepsLots.of_records (t := { s with pending := rest })).trans (first.trans does.toKeepsLots)

/-- Settles O53: a lot is moved on only where its account allows it. -/
theorem lotAccountsKept : Obligations.LotAccountsKept := fun _ _ sound next => (step_keepsLots next).lots sound

/-- Settles O54: a hold count changes only together with the hold list. -/
theorem holdCountsKept : Obligations.HoldCountsKept := fun _ _ sound next => (step_keepsLots next).holds sound

/-- Settles O59: in a quiet state a command does no more than what is its own. -/
theorem recordsChangeOnlyByTheirCommands : Obligations.RecordsChangeOnlyByTheirCommands := by
  intro i s t quiet next
  obtain ⟨u, -, same, does⟩ := exec_does next
  obtain rfl := same quiet
  refine ⟨does.configState, does.tables, does.store, does.stamp, fun sound l mem l' mem' same => ?_⟩
  obtain ⟨identity, priority⟩ := does.stays sound l mem l' mem' same
  injection identity with _ product cls sequence started
  exact ⟨product, cls, sequence, started, priority⟩

end Sys2Proof.Machine
end

section
/-! LREM, LPRI and LSHT answered (R65 to R67). -/

namespace Sys2Proof.Machine

-- one theorem at a time: many at once, each with a thread of its own, can exceed the memory limit
set_option Elab.async false

section owners
variable {s u : State} {id : Id} {l : Lot} {reply : Reply}

/-! ## LREM (R65, R149) -/

theorem exec_lrem (nonzero : id ≠ 0) (asks : s.Asks 0 .lrem (be32 id)) (owns : ∀ f, lremOwner f id s = (u, reply)) :
    exec (.lrem 0) s = .next (u.answer 0 (some .lrem) reply) :=
  exec_carries rfl asks rfl (readLotId_bytes nonzero) owns

theorem lremOwner_unknown (f : Frame) (unknown : s.lot id = none) :
    lremOwner f id s = (s, .check .unknownLot id) := by
  simp [lremOwner, unknown]

theorem lremOwner_refuses (f : Frame) (known : s.lot id = some l) (state : l.state = .bound ∨ l.state = .released) :
    lremOwner f id s = (s, .check .wrongState id) := by
  simp [lremOwner, known, state]

theorem lremOwner_removes (f : Frame) (known : s.lot id = some l) (unbound : l.state ≠ .bound)
    (unreleased : l.state ≠ .released) : lremOwner f id s = (s.freeLot l .removed, .good []) := by
  simp [lremOwner, known, unbound, unreleased]

/-- A lot that leaves the table leaves the queue and the hold list with it (R73, R149). -/
theorem State.freeLot_eq (known : s.lot id = some l) (cause : Cause) : s.freeLot l cause =
    ({ s with
      queue := s.queue.filter fun w : Waiting => decide (w.lot ≠ id)
      holds := s.holds.filter fun h : HoldRecord => decide (h.lot ≠ id)
      lots := s.lots.filter fun x : Lot => decide (x.id ≠ id) } : State).notify 0
        (.nlot id none 0 l.overflow cause none) := by
  obtain rfl := s.lot_id known
  rfl

/-! ## LPRI (R66) -/

theorem exec_lpri {k : Nat} (nonzero : id ≠ 0) (range : k ≤ 7) (asks : s.Asks 0 .lpri (be32 id ++ be 1 k))
    (owns : ∀ f, lpriOwner f (id, k) s = (u, reply)) :
    exec (.lpri 0) s = .next (u.answer 0 (some .lpri) reply) :=
  exec_carries rfl asks rfl (readLpri_bytes nonzero range) owns

/-- The lot with another base priority. -/
def State.rebased (s : State) (id : Id) (k : Nat) : State := s.onLot id fun l => { l with basePriority := k }

theorem State.rebased_lot (k : Nat) (known : s.lot id = some l) :
    (s.rebased id k).lot id = some { l with basePriority := k } :=
  s.onLot_lot_same (fun l => { l with basePriority := k }) known fun _ => rfl

theorem State.rebased_inQueue (k : Nat) : (s.rebased id k).inQueue id = s.inQueue id := rfl

/-- The place of a lot in the queue with the effective priority it has now, were `k` its base priority (R76). -/
def State.freshPlace (s : State) (l : Lot) (k : Nat) (w : Waiting) : Waiting :=
  { w with priority := effectivePriority s.tables.parameters.agingStep k (s.clock.stamp - l.joinStamp).toNat }

/-- In the queue the lot's effective priority is computed from the new base priority (R66, R76). -/
theorem State.rebased_recomputeLot (k : Nat) (known : s.lot id = some l) : (s.rebased id k).recomputeLot id =
    { s.rebased id k with queue := s.queue.map fun w => if w.lot = id then s.freshPlace l k w else w } := by
  have fresh (w : Waiting) (at_id : w.lot = id) : (s.rebased id k).freshPriority w = s.freshPlace l k w := by
    obtain rfl := at_id
    rw [State.freshPriority, State.rebased_lot k known]
    rfl
  have queue : (s.queue.map fun w => if w.lot = id then (s.rebased id k).freshPriority w else w)
      = s.queue.map fun w => if w.lot = id then s.freshPlace l k w else w :=
    List.map_congr_left fun w _ => ite_congr rfl (fresh w) fun _ => rfl
  rw [← queue]
  rfl

theorem State.priorityOf_none (outside : s.inQueue id = false) : s.priorityOf id = none := by
  simpa [State.priorityOf, State.inQueue] using outside

theorem State.priorityOf_some (inside : s.inQueue id = true) :
    ∃ w ∈ s.queue, w.lot = id ∧ s.priorityOf id = some w.priority := by
  cases found : s.queue.find? fun w => w.lot = id with
  | none =>
    obtain ⟨w, mem, at_id⟩ : ∃ w ∈ s.queue, w.lot = id := by simpa [State.inQueue] using inside
    exact absurd at_id (by simpa using List.find?_eq_none.mp found w mem)
  | some w =>
    exact ⟨w, List.mem_of_find?_eq_some found, by simpa using List.find?_some found, by simp [State.priorityOf, found]⟩

theorem lpriOwner_unknown (f : Frame) (k : Nat) (unknown : s.lot id = none) :
    lpriOwner f (id, k) s = (s, .check .unknownLot id) := by
  simp [lpriOwner, unknown]

theorem lpriOwner_outside (f : Frame) (k : Nat) (known : s.lot id = some l) (outside : s.inQueue id = false) :
    lpriOwner f (id, k) s = (s.rebased id k, .good (be 1 k ++ [0x00, 0x00])) := by
  have still : (s.rebased id k).inQueue id = false := outside
  have untouched : (if (s.rebased id k).inQueue id = true then
      ((s.rebased id k).recomputeLot id).offer (some hostPort) id else s.rebased id k) = s.rebased id k :=
    if_neg (by simp [still])
  simp only [lpriOwner, known]
  rw [← State.rebased, untouched, State.priorityOf_none still]
  rfl

/-- The lot of an LPRI in the queue, offered with its new effective priority (R66). -/
def State.reoffered (s : State) (id : Id) (k : Nat) : State :=
  ((s.rebased id k).recomputeLot id).offer (some hostPort) id

theorem lpriOwner_inside (f : Frame) (k : Nat) (known : s.lot id = some l) (inside : s.inQueue id = true) :
    lpriOwner f (id, k) s = (s.reoffered id k,
      .good (be 1 k ++ optional 1 (((s.reoffered id k).priorityOf id).map (be 1)))) := by
  have still : (s.rebased id k).inQueue id = true := inside
  simp only [lpriOwner, known]
  rw [← State.rebased, if_pos still]
  rfl

/-! ## LSHT (R67) -/

theorem exec_lsht (nonzero : id ≠ 0) (asks : s.Asks 0 .lsht (be32 id)) (owns : ∀ f, lshtOwner f id s = (u, reply)) :
    exec (.lsht 0) s = .next (u.answer 0 (some .lsht) reply) :=
  exec_carries rfl asks rfl (readLotId_bytes nonzero) owns

theorem lshtOwner_unknown (f : Frame) (unknown : s.lot id = none) :
    lshtOwner f id s = (s, .check .unknownLot id) := by
  simp [lshtOwner, unknown]

theorem lshtOwner_refuses (f : Frame) (known : s.lot id = some l)
    (whole : l.state = .bound ∨ l.tested + l.lost = l.started) :
    lshtOwner f id s = (s, .check .wrongState id) := by
  simp [lshtOwner, known, whole]

theorem Bins.add_get (v w : Bins) (b : Fin 16) : (v.add w)[b] = v[b] + w[b] := by
  simp [Bins.add]

/-- A retest pass follows while one may and a unit is in a pool (R109). -/
theorem Lot.retests_iff (l : Lot) (n : Nat) :
    l.retests n = true ↔ l.pass < n ∧ ∃ b : Fin 16, l.poolNow[b] + l.poolNext[b] ≠ 0 := by
  have pooled : l.mergePool.poolNow.isZero = true ↔ ∀ b : Fin 16, l.poolNow[b] + l.poolNext[b] = 0 := by
    simp only [Lot.mergePool, Bins.isZero_iff, Bins.add_get]
  rw [Lot.retests, Bool.and_eq_true, Bool.not_eq_true', ← Bool.not_eq_true, pooled, not_forall, decide_eq_true_eq,
    and_comm]

/-- The pass that completion leaves (R109). -/
theorem Lot.completePass_pass (l : Lot) (n : Nat) :
    (l.completePass n).pass = if l.retests n = true then l.pass + 1 else l.pass := by
  by_cases more : l.retests n = true
  · rw [Lot.completePass, if_pos more, if_pos more]
  · rw [Lot.completePass, if_neg more, if_neg more, Lot.closePool, Lot.mergePool]

theorem Lot.completePass_state (l : Lot) (n : Nat) : (l.completePass n).state = l.state := by
  obtain ⟨_, _, _, _, e⟩ := l.completePass_cases n
  rw [e]

/-- Judging leaves every lot its pass. -/
theorem State.Judges.lot_pass {t : State} (h : s.Judges t) (k : Id) :
    (t.lot k).map Lot.pass = (s.lot k).map Lot.pass := by
  have found (v : State) : (v.lot k).map Lot.pass =
      ((v.lots.map fun l => (l.id, l.pass)).find? fun x => x.1 = k).map Prod.snd := by
    rw [List.find?_map, Option.map_map]
    rfl
  rw [found, found, h.passes]

/-- The lot whose units short of S are declared lost, its pass completed (R67). -/
def State.shortened (s : State) (id : Id) (n : Nat) : State := s.onLot id fun l => l.declareShort.completePass n

theorem State.shortened_lot (n : Nat) (known : s.lot id = some l) :
    (s.shortened id n).lot id = some (l.declareShort.completePass n) :=
  s.onLot_lot_same _ known fun m => (m.declareShort.completePass_stays n).id

/-- No pass is left to it: the lot is TESTED, checked and its sample decided (R67, R110). -/
def State.shortTested (s : State) (id : Id) (n : Nat) : State :=
  ((((((s.shortened id n).onLot id fun l => { l with state := .tested }).leaveQueue id).nlot id .tested).checkRatios
    (some hostPort) id).decideSample id)

theorem State.shortTested_eq (n : Nat) : s.shortTested id n = ((({ (s.onLot id fun l =>
      { l.declareShort.completePass n with state := .tested }) with
        queue := s.queue.filter fun w : Waiting => decide (w.lot ≠ id) } : State).nlot id .tested).checkRatios
          (some 0) id).decideSample id := by
  rw [State.shortTested, State.shortened, State.onLot_onLot _ _ _ _ fun m => (m.declareShort.completePass_stays n).id]
  rfl

theorem State.shortTested_pass {n : Nat} (known : s.lot id = some l) (last : l.declareShort.retests n = false) :
    ((s.shortTested id n).lot id).map Lot.pass = some l.pass := by
  have judges := ((State.Judges.refl ((((s.shortened id n).onLot id fun l =>
    { l with state := .tested }).leaveQueue id).nlot id .tested)).checkRatios (some hostPort) id).decideSample id
  have tested : (((((s.shortened id n).onLot id fun l =>
      { l with state := .tested }).leaveQueue id).nlot id .tested).lot id).map Lot.pass = some l.pass := by
    rw [State.nlot_lot]
    show (((s.shortened id n).onLot id fun l => { l with state := .tested }).lot id).map Lot.pass = some l.pass
    rw [State.onLot_lot_same _ (fun l => { l with state := .tested }) (State.shortened_lot n known) fun _ => rfl]
    have kept := l.declareShort.completePass_pass n
    rw [if_neg (by simp [last])] at kept
    exact congrArg some kept
  exact (judges.lot_pass id).trans tested

theorem lshtOwner_retests (f : Frame) (known : s.lot id = some l) (unbound : l.state ≠ .bound)
    (short : l.tested + l.lost ≠ l.started) (again : l.declareShort.retests (s.product l).maxRetests = true) :
    lshtOwner f id s = (s.shortened id (s.product l).maxRetests,
      .good (be 2 (l.started - l.tested) ++ be 1 (l.pass + 1) ++ [l.state.byte])) := by
  have after := State.shortened_lot (s.product l).maxRetests known
  have pass := l.declareShort.completePass_pass (s.product l).maxRetests
  rw [if_pos again] at pass
  have state := l.declareShort.completePass_state (s.product l).maxRetests
  simp only [lshtOwner, known, unbound, short, or_self, if_false, again, if_true]
  rw [← State.shortened, State.lotStateOf, after, Option.map_some, Option.map_some, pass, state]
  rfl

theorem lshtOwner_tested (f : Frame) (known : s.lot id = some l) (unbound : l.state ≠ .bound)
    (short : l.tested + l.lost ≠ l.started) (last : l.declareShort.retests (s.product l).maxRetests = false) :
    lshtOwner f id s = (s.shortTested id (s.product l).maxRetests,
      .good (be 2 (l.started - l.tested) ++ be 1 l.pass
        ++ (s.shortTested id (s.product l).maxRetests).lotStateOf id)) := by
  simp only [lshtOwner, known, unbound, short, or_self, if_false, last, Bool.false_eq_true]
  rw [← State.shortened, ← State.shortTested, State.shortTested_pass known last]
  rfl

end owners

/-- Settles O31: each owner's answers by their own lemmas. -/
theorem lotRemovalPriorityAndShortCount : Obligations.LotRemovalPriorityAndShortCount := by
  intro s id nonzero
  refine ⟨fun asks => ?_, fun k range asks => ?_, fun asks => ?_⟩
  · have answered {u : State} {reply : Reply} := exec_lrem (u := u) (reply := reply) nonzero asks
    refine ⟨fun unknown => answered fun f => lremOwner_unknown f unknown, fun l known =>
      ⟨fun state => answered fun f => lremOwner_refuses f known state, fun unbound unreleased => ?_⟩⟩
    exact answered fun f => State.freeLot_eq known .removed ▸ lremOwner_removes f known unbound unreleased
  · have answered {u : State} {reply : Reply} := exec_lpri (u := u) (reply := reply) nonzero range asks
    refine ⟨fun unknown => answered fun f => lpriOwner_unknown f k unknown, fun l known =>
      ⟨fun outside => answered fun f => lpriOwner_outside f k known outside, fun inside => ?_⟩⟩
    have again := answered fun f => lpriOwner_inside f k known inside
    intro fresh offered
    have same : s.reoffered id k = offered :=
      congrArg (State.offer · (some hostPort) id) (State.rebased_recomputeLot k known)
    rw [same] at again
    refine ⟨fun outside => ?_, fun inside => ?_⟩
    · rw [State.priorityOf_none outside] at again
      exact again
    · obtain ⟨w, mem, at_id, priority⟩ := State.priorityOf_some inside
      rw [priority] at again
      exact ⟨w, mem, at_id, again⟩
  · have answered {u : State} {reply : Reply} := exec_lsht (u := u) (reply := reply) nonzero asks
    refine ⟨fun unknown => answered fun f => lshtOwner_unknown f unknown, fun l known =>
      ⟨fun whole => answered fun f => lshtOwner_refuses f known whole, fun unbound short => ?_⟩⟩
    have retests : l.declareShort.retests (s.product l).maxRetests = true ↔ _ := l.declareShort.retests_iff _
    intro max completed again ended judged
    have same : s.shortTested id (s.product l).maxRetests = judged := State.shortTested_eq _
    refine ⟨fun again => answered fun f => lshtOwner_retests f known unbound short (retests.mpr again), fun last => ?_⟩
    have tested := answered fun f => lshtOwner_tested f known unbound short
      (Bool.eq_false_iff.mpr (mt retests.mp last))
    rw [same] at tested
    exact tested

end Sys2Proof.Machine
end

section
/-! STAK, SARM and the attention test (R73, R164, R166, R167). -/

namespace Sys2Proof.Machine

-- one theorem at a time: many at once, each with a thread of its own, can exceed the memory limit
set_option Elab.async false

section owners
variable {s u : State} {reply : Reply}

/-! ## The attention test (R166) -/

theorem State.attentionTest_waits (wait : s.armed = false ∨ s.offeredCount < s.tables.parameters.attention) :
    s.attentionTest = s :=
  if_neg fun ⟨armed, enough⟩ => wait.elim (by simp [armed]) enough.not_gt

theorem State.attentionTest_sends (armed : s.armed = true)
    (enough : s.tables.parameters.attention ≤ s.offeredCount) : s.attentionTest =
      ({ s with armed := false } : State).notify 0 (.natt s.offeredCount s.shipments.length) :=
  if_pos ⟨armed, enough⟩

/-! ## SARM (R167) -/

theorem exec_sarm (asks : s.Asks 0 .sarm []) (owns : ∀ f, sarmOwner f () s = (u, reply)) :
    exec (.sarm 0) s = .next (u.answer 0 (some .sarm) reply) := exec_carries rfl asks rfl rfl owns

theorem sarmOwner_arms (f : Frame) (few : s.offeredCount < s.tables.parameters.attention) :
    sarmOwner f () s = ({ s with armed := true },
      .good (0x01 :: (be 1 s.offeredCount ++ be 1 s.shipments.length))) := by
  have waits : ({ s with armed := true } : State).attentionTest = { s with armed := true } :=
    State.attentionTest_waits (.inr few)
  rw [sarmOwner, waits]
  rfl

theorem sarmOwner_sends (f : Frame) (enough : s.tables.parameters.attention ≤ s.offeredCount) :
    sarmOwner f () s = (({ s with armed := false } : State).notify 0 (.natt s.offeredCount s.shipments.length),
      .good (0x00 :: (be 1 s.offeredCount ++ be 1 s.shipments.length))) := by
  have sends : ({ s with armed := true } : State).attentionTest =
      ({ s with armed := false } : State).notify 0 (.natt s.offeredCount s.shipments.length) :=
    State.attentionTest_sends rfl enough
  rw [sarmOwner, sends]
  rfl

/-! ## STAK (R73, R164) -/

theorem exec_stak (asks : s.Asks 0 .stak []) (owns : ∀ f, stakOwner f () s = (u, reply)) :
    exec (.stak 0) s = .next (u.answer 0 (some .stak) reply) := exec_carries rfl asks rfl rfl owns

theorem stakOwner_none (f : Frame) (none : s.offeredCount = 0) :
    stakOwner f () s = (s, .good (0x00 :: (be 1 s.shipments.length ++ be 1 0))) := by
  have absent : (s.shipments.find? fun r => decide (r.offer = .offered)) = Option.none := by
    simpa [State.offeredCount] using none
  simp only [stakOwner, absent, State.queueCounts, none]
  rfl

/-- The shipment record is taken, and its lot is retired with it (R73). -/
theorem State.retire_dropShipment {l : Lot} {id : Id} (known : s.lot id = some l) : (s.dropShipment id).retire id =
    ({ s with
      shipments := s.shipments.filter fun x : Shipment => decide (x.lot ≠ id)
      queue := s.queue.filter fun w : Waiting => decide (w.lot ≠ id)
      holds := s.holds.filter fun h : HoldRecord => decide (h.lot ≠ id)
      lots := s.lots.filter fun x : Lot => decide (x.id ≠ id) } : State).notify 0
        (.nlot id none 0 l.overflow .taken none) := by
  have there : (s.dropShipment id).lot id = some l := known
  rw [State.retire, there]
  exact State.freeLot_eq there .taken

theorem stakOwner_takes (f : Frame) {r : Shipment}
    (first : (s.shipments.find? fun r => decide (r.offer = .offered)) = some r) : stakOwner f () s =
      ((s.dropShipment r.lot).retire r.lot,
        .good (0x01 :: (r.bytes ++ ((s.dropShipment r.lot).retire r.lot).queueCounts))) := by
  simp only [stakOwner, first]
  rfl

end owners

/-- Settles O39: the attention test by its two cases, STAK and SARM by their owners' answers. -/
theorem shipmentTakenAndAttentionArmed : Obligations.ShipmentTakenAndAttentionArmed := by
  intro s offered
  refine ⟨State.attentionTest_waits, State.attentionTest_sends, fun asks => ?_, fun asks => ?_⟩
  · refine ⟨fun none => exec_stak asks fun f => stakOwner_none f none, fun r l first known => ?_⟩
    have took := exec_stak asks fun f => stakOwner_takes f first
    rw [State.retire_dropShipment known] at took
    intro freed
    rw [State.queueCounts, ← List.append_assoc] at took
    exact took
  · exact ⟨fun few => exec_sarm asks fun f => sarmOwner_arms f few,
      fun enough => exec_sarm asks fun f => sarmOwner_sends f enough⟩

end Sys2Proof.Machine
end

section
/-! LENT answered (R62 to R64, R186). -/

namespace Sys2Proof.Machine

-- one theorem at a time: many at once, each with a thread of its own, can exceed the memory limit
set_option Elab.async false

/-! ## The record that enters (R63, R64) -/

theorem Bins.add_zero (v : Bins) : v.add Bins.zero = v := by
  refine Vector.ext fun b below => ?_
  simp [Bins.add, Bins.zero]

theorem Bins.zero_add (v : Bins) : Bins.zero.add v = v := by
  refine Vector.ext fun b below => ?_
  simp [Bins.add, Bins.zero]

theorem Bins.isZero_eq_false {v : Bins} : v.isZero = false ↔ ∃ b : Fin 16, v[b] ≠ 0 := by
  rw [← Bool.not_eq_true, Bins.isZero_iff, not_forall]

section record
variable {f : LentFields} {r : Restore} (sequence stamp : Stamp)

/-- The record of a lot entered without a restore part (R64). -/
def LentFields.plain (f : LentFields) (sequence stamp : Stamp) : Lot :=
  { id := f.lot, product := f.product, cls := f.cls, basePriority := f.basePriority,
    sequence := sequence, joinStamp := stamp, state := .waiting, cell := none, pass := 0,
    runCount := 0, started := f.started, tested := 0, lost := 0, rejects := 0, final := Bins.zero,
    poolNow := Bins.zero, poolNext := Bins.zero, sampleSize := none, holdCount := 0, overflow := false,
    samplePending := false }

/-- The same record with a restore part put in (R64). -/
def LentFields.restored (f : LentFields) (sequence stamp : Stamp) (r : Restore) : Lot :=
  { f.plain sequence stamp with
    pass := r.pass
    tested := r.tested
    lost := r.lost
    final := r.final
    poolNow := if r.pass = 0 then Bins.zero else r.pool
    poolNext := if r.pass = 0 then r.pool else Bins.zero }

theorem LentFields.entered_plain (part : f.restore = none) : f.entered sequence stamp = f.plain sequence stamp := by
  simp [LentFields.entered, LentFields.plain, part]

theorem LentFields.entered_restored (part : f.restore = some r) :
    f.entered sequence stamp = f.restored sequence stamp r := by
  simp [LentFields.entered, LentFields.restored, LentFields.plain, part]

/-- Work is left for a restored lot's pass: units still expected in pass 0, a pool to draw later (R64). -/
theorem LentFields.restored_hasWork : (f.restored sequence stamp r).hasWork = true ↔
    (r.pass = 0 ∧ r.tested + r.lost < f.started) ∨ (r.pass ≠ 0 ∧ ∃ b : Fin 16, r.pool[b] ≠ 0) := by
  by_cases first : r.pass = 0
  · simp [Lot.hasWork, LentFields.restored, LentFields.plain, first]
  · have pooled : r.pool.isZero = false ↔ ∃ b : Fin 16, r.pool[b] ≠ 0 := by
      rw [← Bool.not_eq_true, Bins.isZero_iff, not_forall]
    simp [Lot.hasWork, LentFields.restored, LentFields.plain, first, pooled]

/-- Whichever pool the restore part went to, the merge makes it the present pass's (R109). -/
theorem LentFields.restored_mergePool : (f.restored sequence stamp r).mergePool =
    { f.restored sequence stamp r with poolNow := r.pool, poolNext := Bins.zero } := by
  by_cases first : r.pass = 0
  · simp [Lot.mergePool, LentFields.restored, first, Bins.zero_add]
  · simp [Lot.mergePool, LentFields.restored, first, Bins.add_zero]

theorem LentFields.restored_retests (n : Nat) : (f.restored sequence stamp r).retests n = true ↔
    r.pass < n ∧ ∃ b : Fin 16, r.pool[b] ≠ 0 := by
  rw [Lot.retests, LentFields.restored_mergePool, Bool.and_eq_true, Bool.not_eq_true', Bins.isZero_eq_false, decide_eq_true_eq,
    and_comm]
  rfl

/-- A restored lot that goes on to the next pass (R64, R109). -/
theorem LentFields.restored_again {n : Nat} (again : (f.restored sequence stamp r).retests n = true) :
    (f.restored sequence stamp r).completePass n =
      { f.restored sequence stamp r with pass := r.pass + 1, poolNow := r.pool, poolNext := Bins.zero } := by
  rw [Lot.completePass, if_pos again, LentFields.restored_mergePool]
  rfl

/-- A restored lot whose last pass is complete (R64, R109). -/
theorem LentFields.restored_whole {n : Nat} (last : ¬(f.restored sequence stamp r).retests n = true) :
    (f.restored sequence stamp r).completePass n =
      { f.restored sequence stamp r with
        final := r.final.add r.pool, poolNow := Bins.zero, poolNext := Bins.zero } := by
  rw [Lot.completePass, if_neg last, LentFields.restored_mergePool]
  rfl

/-- What becomes of a restored lot: it stays as it is with work left for its pass, goes on to the next, or is TESTED
(R64). -/
theorem LentFields.settledEntry_left {n : Nat} (left : (f.restored sequence stamp r).hasWork = true) :
    (f.restored sequence stamp r).settledEntry true n = f.restored sequence stamp r := by
  rw [Lot.settledEntry, left]
  rfl

theorem LentFields.settledEntry_again {n : Nat} (idle : (f.restored sequence stamp r).hasWork = false)
    (again : (f.restored sequence stamp r).retests n = true) : (f.restored sequence stamp r).settledEntry true n =
      { f.restored sequence stamp r with pass := r.pass + 1, poolNow := r.pool, poolNext := Bins.zero } := by
  rw [Lot.settledEntry, idle, Bool.not_false, Bool.and_true, if_pos rfl, if_pos again, LentFields.restored_again _ _ again]

theorem LentFields.settledEntry_whole {n : Nat} (idle : (f.restored sequence stamp r).hasWork = false)
    (last : ¬(f.restored sequence stamp r).retests n = true) : (f.restored sequence stamp r).settledEntry true n =
      { f.restored sequence stamp r with
        state := .tested, final := r.final.add r.pool, poolNow := Bins.zero, poolNext := Bins.zero } := by
  rw [Lot.settledEntry, idle, Bool.not_false, Bool.and_true, if_pos rfl, if_neg last, LentFields.restored_whole _ _ last]

end record

/-! ## The lot joins the table and goes on (R64, R78) -/

/-- The lot in the table, the entry counter advanced and the NLOT made (R60, R64). -/
def State.withEntered (s : State) (l : Lot) : State :=
  ({ s with lots := s.lots ++ [l], sequence := nextSequence s.sequence } : State).nlot l.id .entered

section enter
variable {s : State} {l : Lot}

/-- A change of a lot to what it is changes nothing. -/
theorem State.onLot_self {id : Id} {f : Lot → Lot} (same : ∀ x ∈ s.lots, x.id = id → f x = x) : s.onLot id f = s := by
  have lots : (s.lots.map fun x => if x.id = id then f x else x) = s.lots := by
    refine (List.map_congr_left fun x mem => ?_).trans (List.map_id _)
    exact ite_eq_right_iff.mpr (same x mem)
  rw [State.onLot, lots]

/-- A lot that joins the queue in the minute of its queue-join stamp (R78). -/
theorem State.joinQueue_now {id : Id} (known : s.lot id = some l)
    (now : ∀ x ∈ s.lots, x.id = id → x.joinStamp = s.clock.stamp) :
    s.joinQueue id = { s with queue := s.queue ++ [⟨id, l.basePriority⟩] } := by
  have stamped : (s.onLot id fun x => { x with joinStamp := s.clock.stamp }) = s :=
    State.onLot_self fun x mem at_id => by rw [← now x mem at_id]
  rw [State.joinQueue, known]
  dsimp only
  rw [stamped]

theorem State.withEntered_lots : (s.withEntered l).lots = s.lots ++ [l] := by
  rw [State.withEntered, State.nlot_lots]

theorem State.withEntered_queue : (s.withEntered l).queue = s.queue := by
  rw [State.withEntered, State.nlot_queue]

theorem State.withEntered_clock : (s.withEntered l).clock = s.clock := by
  rw [State.withEntered, State.onlyPorts_nlot]

/-- The lot that entered joins the queue and is offered (R64, R78). -/
def State.entryOffered (s : State) (l : Lot) : State :=
  ({ s.withEntered l with queue := s.queue ++ [(⟨l.id, l.basePriority⟩ : Waiting)] } : State).offer (some hostPort) l.id

/-- The lot that entered is checked and its sample decided (R64, R110). -/
def State.entryJudged (s : State) (l : Lot) : State :=
  ((s.withEntered l).checkRatios (some hostPort) l.id).decideSample l.id

theorem State.enterLot_waiting (fresh : s.lot l.id = none) (waiting : l.state = .waiting)
    (now : l.joinStamp = s.clock.stamp) : s.enterLot (some hostPort) l = s.entryOffered l := by
  have new : ∀ x ∈ s.lots, x.id ≠ l.id := by simpa [State.lot] using fresh
  have known : (s.withEntered l).lot l.id = some l := by
    rw [State.lot, State.withEntered_lots, List.find?_append, ← State.lot, fresh]
    simp
  have joined : (s.withEntered l).joinQueue l.id =
      { s.withEntered l with queue := s.queue ++ [⟨l.id, l.basePriority⟩] } := by
    rw [State.joinQueue_now known, State.withEntered_queue]
    rw [State.withEntered_lots, State.withEntered_clock]
    intro x mem at_id
    obtain mem | one := List.mem_append.mp mem
    · exact absurd at_id (new x mem)
    · rw [List.mem_singleton.mp one, now]
  have untested : ¬l.state = .tested := by simp [waiting]
  rw [State.enterLot, if_neg untested, State.entryOffered, ← joined]
  rfl

theorem State.enterLot_tested (tested : l.state = .tested) :
    s.enterLot (some hostPort) l = s.entryJudged l :=
  if_pos tested

end enter

/-! ## LENT's answers (R62 to R64, R186) -/

section owner
variable {s u : State} {f : LentFields} {reply : Reply}

theorem exec_lent (range : f.InRange) (asks : s.Asks 0 .lent f.bytes) (configured : s.configState = .configured)
    (owns : ∀ frame, lentConfigured frame f s = (u, reply)) :
    exec (.lent 0) s = .next (u.answer 0 (some .lent) reply) := by
  refine exec_carries rfl asks rfl (readLent_bytes range) fun frame => ?_
  rw [afterReattempt, if_neg (by simp [configured])]
  exact owns frame

theorem PortUnit.startNext_sense (u : PortUnit) : u.startNext.sense = u.sense := by
  obtain e | ⟨-, ⟨bytes, e⟩ | ⟨f, -, e⟩ | ⟨n, rest, -, e⟩⟩ := u.startNext_cases <;> rw [e]

/-- A request that waits leaves the sense record (R11). -/
theorem State.answer_wait_sense (s : State) (p : Port) (r : Option Req) :
    ((s.answer p r .wait).port p).sense = (s.port p).sense := by
  rw [State.answer, State.onPort, State.setPort_port_same, PortUnit.answer, PortUnit.startNext_sense]

/-- The restore part, if there is one, is consistent (R63). -/
def LentFields.Consistent (f : LentFields) (s : State) : Prop :=
  ∀ r, f.restore = some r → r.consistent f.started s.tables.products[f.product].maxRetests
    (s.plan s.tables.products[f.product]) = true

theorem LentFields.Consistent.passes (consistent : f.Consistent s) : ¬(f.restore.map fun r => r.consistent f.started
    s.tables.products[f.product].maxRetests (s.plan s.tables.products[f.product])) = some false := by
  simpa [LentFields.Consistent] using consistent

/-- A lot may enter: its product is defined, its id free, its restore part consistent, and the table has room (R63). -/
structure LentFields.Accepted (f : LentFields) (s : State) : Prop where
  defined    : s.tables.products[f.product].defined = true
  fresh      : s.lot f.lot = none
  consistent : f.Consistent s
  room       : s.lots.length < 256

theorem lentConfigured_duplicate (frame : Frame) (defined : s.tables.products[f.product].defined = true)
    (known : s.lot f.lot ≠ none) : lentConfigured frame f s = (s, .check .duplicateLot f.lot) := by
  simp only [lentConfigured, defined, Bool.not_true, Bool.false_eq_true, if_false, Option.isSome_iff_ne_none.mpr known,
    if_true]

theorem lentConfigured_inconsistent (frame : Frame) (defined : s.tables.products[f.product].defined = true)
    (fresh : s.lot f.lot = none) {r : Restore} (part : f.restore = some r)
    (bad : r.consistent f.started s.tables.products[f.product].maxRetests
      (s.plan s.tables.products[f.product]) = false) :
    lentConfigured frame f s = (s, .check .inconsistent f.lot) := by
  simp only [lentConfigured, defined, Bool.not_true, Bool.false_eq_true, if_false, fresh, Option.isSome_none, part,
    Option.map_some, bad, if_true]

theorem lentConfigured_full (frame : Frame) (defined : s.tables.products[f.product].defined = true)
    (fresh : s.lot f.lot = none) (consistent : f.Consistent s) (full : 256 ≤ s.lots.length) :
    lentConfigured frame f s = (s, .check .lotTableFull 0) := by
  simp only [lentConfigured, defined, Bool.not_true, Bool.false_eq_true, if_false, fresh, Option.isSome_none,
    consistent.passes, Config.lotRoom, full, if_true]

/-- The response data of LENT (R64). -/
def State.lentData (u : State) (sequence : Stamp) (id : Id) : List Byte :=
  be32 sequence ++ be 1 (((u.lot id).map Lot.pass).getD 0) ++ u.lotStateOf id

section enters
variable {l : Lot} (frame : Frame) (accepted : f.Accepted s) (settles :
  (f.entered s.sequence s.clock.stamp).settledEntry f.restore.isSome s.tables.products[f.product].maxRetests = l)
include accepted settles

theorem lentConfigured_enters (sequence : l.sequence = s.sequence) : lentConfigured frame f s =
    (s.enterLot (some hostPort) l, .good ((s.enterLot (some hostPort) l).lentData s.sequence f.lot)) := by
  simp only [lentConfigured, accepted.defined, Bool.not_true, Bool.false_eq_true, if_false, accepted.fresh,
    Option.isSome_none, accepted.consistent.passes, Config.lotRoom, accepted.room.not_ge, settles, sequence]
  rfl

/-- A lot that enters WAITING (R64). -/
theorem lentConfigured_offers (sequence : l.sequence = s.sequence) (id : l.id = f.lot) (waiting : l.state = .waiting)
    (now : l.joinStamp = s.clock.stamp) :
    lentConfigured frame f s = (s.entryOffered l, .good ((s.entryOffered l).lentData s.sequence f.lot)) := by
  rw [lentConfigured_enters frame accepted settles sequence, State.enterLot_waiting (id ▸ accepted.fresh) waiting now]

/-- A lot that enters TESTED (R64). -/
theorem lentConfigured_judges (sequence : l.sequence = s.sequence) (tested : l.state = .tested) :
    lentConfigured frame f s = (s.entryJudged l, .good ((s.entryJudged l).lentData s.sequence f.lot)) := by
  rw [lentConfigured_enters frame accepted settles sequence, State.enterLot_tested tested]

end enters

end owner

/-- Settles O30: the refusals by the owner's lemmas in their order, the lot that enters by what its restore part makes
of it. -/
theorem lotEntryAddsRecord : Obligations.LotEntryAddsRecord := by
  intro s f range asks q plan answers fits plain restored entered joined judged data
  refine ⟨fun unconfigured => ?_, fun configured => ?_⟩
  · have waits := exec_carries (i := .lent 0) (owner := afterReattempt lentConfigured) rfl asks rfl
      (readLent_bytes range) fun frame => afterReattempt_waits unconfigured frame _
    exact ⟨_, waits, rfl, fun p other => State.answer_port_ne _ _ _ other, State.answer_wait_sense _ 0 _,
      State.answer_wait_service _ 0 _⟩
  have answered {u : State} {reply : Reply} := exec_lent (u := u) (reply := reply) range asks configured
  refine ⟨fun undefined => answered fun frame => lentConfigured_undefined frame undefined,
    fun defined known => answered fun frame => lentConfigured_duplicate frame defined known,
    fun defined fresh => ⟨fun r part bad => ?_, fun good full => ?_, fun room => ⟨fun part => ?_, fun r part good => ?_⟩⟩⟩
  · have bad := Bool.eq_false_iff.mpr (mt Restore.consistent_iff.mp bad)
    exact answered fun frame => lentConfigured_inconsistent frame defined fresh part bad
  · have consistent : f.Consistent s := fun r part => Restore.consistent_iff.mpr (good r part)
    exact answered fun frame => lentConfigured_full frame defined fresh consistent full
  · have consistent : f.Consistent s := fun r given => by simp [part] at given
    have settles : (f.entered s.sequence s.clock.stamp).settledEntry f.restore.isSome q.maxRetests = plain := by
      rw [LentFields.entered_plain _ _ part, part]
      rfl
    exact answered fun frame =>
      lentConfigured_offers frame ⟨defined, fresh, consistent, room⟩ settles rfl rfl rfl rfl
  intro left again next whole
  have accepted : f.Accepted s := by
    refine ⟨defined, fresh, fun r' given => ?_, room⟩
    obtain rfl : r = r' := Option.some.inj (part.symm.trans given)
    exact Restore.consistent_iff.mpr good
  have settles {l : Lot} (h : (f.restored s.sequence s.clock.stamp r).settledEntry true q.maxRetests = l) :
      (f.entered s.sequence s.clock.stamp).settledEntry f.restore.isSome q.maxRetests = l := by
    rw [LentFields.entered_restored _ _ part, part]
    exact h
  have work : _ ↔ left := LentFields.restored_hasWork s.sequence s.clock.stamp
  have retests : _ ↔ again := LentFields.restored_retests (f := f) s.sequence s.clock.stamp q.maxRetests
  refine ⟨fun left => ?_, fun none again => ?_, fun none last => ?_⟩
  · exact answered fun frame => lentConfigured_offers frame accepted (l := restored r)
      (settles (LentFields.settledEntry_left _ _ (work.mpr left))) rfl rfl rfl rfl
  · have idle := Bool.eq_false_iff.mpr (mt work.mp none)
    exact answered fun frame => lentConfigured_offers frame accepted (l := next)
      (settles (LentFields.settledEntry_again _ _ idle (retests.mpr again))) rfl rfl rfl rfl
  · have idle := Bool.eq_false_iff.mpr (mt work.mp none)
    exact answered fun frame => lentConfigured_judges frame accepted (l := whole)
      (settles (LentFields.settledEntry_whole _ _ idle (mt retests.mp last))) rfl rfl

end Sys2Proof.Machine
end

section
/-! The dispatch queue and the lots it holds (R74): what each update of the records leaves of the agreement between
them, with one lot set aside while it passes into or out of the queue. -/

namespace Sys2Proof.Machine

-- one theorem at a time: many at once, each with a thread of its own, can exceed the memory limit
set_option Elab.async false

/-- A lot that has a place in the dispatch queue: it is WAITING and unheld (R74). -/
def Lot.Dispatchable (l : Lot) : Prop := l.state = .waiting ∧ l.unheld = true

/-- The lots of the dispatch queue, in the order of joining. -/
def State.places (s : State) : List Id := s.queue.map Waiting.lot

/-- The dispatch queue holds each dispatchable lot once and no other, but for the lot `out` that is set aside and has no
place; a lot that a cell names is BOUND to that cell. -/
structure State.Waits (out : Option Id) (s : State) : Prop where
  once  : s.places.Nodup
  exact : ∀ id, id ∈ s.places ↔ out ≠ some id ∧ ∃ l, s.lot id = some l ∧ l.Dispatchable
  named : ∀ c id l, (s.cell c).bound = some id → s.lot id = some l → l.state = .bound ∧ l.cell = some c

theorem Lot.not_dispatchable_of_held {l : Lot} (held : l.unheld = false) : ¬l.Dispatchable := by
  simp [Lot.Dispatchable, held]

theorem Lot.not_dispatchable_of_state {l : Lot} (state : l.state ≠ .waiting) : ¬l.Dispatchable := fun h => state h.1

theorem Lot.Stays.dispatchable {l m : Lot} (h : l.Stays m) : m.Dispatchable ↔ l.Dispatchable := by
  unfold Lot.Dispatchable
  rw [h.unheld]
  obtain same | ⟨past, past'⟩ := h.state
  · rw [same]
  · exact iff_of_false (fun k => past'.1 k.1) fun k => past.1 k.1

theorem Lot.Links.bound {l m : Lot} (h : l.Links m) {c : CellNo} (bound : l.state = .bound ∧ l.cell = some c) :
    m.state = .bound ∧ m.cell = some c := by
  obtain same | ⟨past, -⟩ := h.state
  · rwa [same, h.cell]
  · exact absurd bound.1 past.2

theorem State.places_leaveQueue (s : State) (id : Id) : (s.leaveQueue id).places = s.places.filter (· ≠ id) := by
  simp [State.places, State.leaveQueue, List.filter_map, Function.comp_def]

theorem State.places_joinQueue {s : State} {id : Id} {l : Lot} (known : s.lot id = some l) :
    (s.joinQueue id).places = s.places ++ [id] := by
  simp [State.joinQueue, known, State.places]

theorem State.inQueue_iff {s : State} {id : Id} : s.inQueue id = true ↔ id ∈ s.places := by
  simp [State.inQueue, State.places]

namespace State.Waits

variable {s t : State} {out : Option Id} {id : Id} {c : CellNo}

/-! ## Updates that leave the lots and the queue -/

theorem of_links (h : s.Waits out) (lots : t.lots = s.lots) (places : t.places = s.places)
    (bound : ∀ c id, (t.cell c).bound = some id → (s.cell c).bound = some id) : t.Waits out := by
  have lot (k : Id) : t.lot k = s.lot k := by rw [State.lot, lots, State.lot]
  exact
    { once := places ▸ h.once
      exact := fun id => by rw [places, lot]; exact h.exact id
      named := fun c id l names known => h.named c id l (bound c id names) (lot id ▸ known) }

theorem of_same (h : s.Waits out) (lots : t.lots = s.lots := by rfl) (cells : t.cells = s.cells := by rfl)
    (queue : t.queue = s.queue := by rfl) : t.Waits out :=
  h.of_links lots (by rw [State.places, queue, State.places]) fun c id names => by rwa [State.cell, cells] at names

theorem of_onlyPorts (h : s.Waits out) (ports : s.OnlyPorts t) : t.Waits out := by
  rw [ports]
  exact h.of_same

theorem of_ite {p : Prop} [Decidable p] (h : p → s.Waits out) (k : ¬p → t.Waits out) :
    (if p then s else t).Waits out := by
  split
  · exact h ‹_›
  · exact k ‹_›

/-- A cell that names no new lot. -/
theorem onCell (h : s.Waits out) (c : CellNo) (f : Cell → Cell)
    (names : ∀ id, (f (s.cell c)).bound = some id → (s.cell c).bound = some id := by exact fun _ same => same) :
    (s.onCell c f).Waits out := by
  refine h.of_links rfl rfl fun d id bound => ?_
  rw [State.onCell_eq] at bound
  by_cases here : d = c
  · subst here
    rw [State.setCell_cell_same] at bound
    exact names id bound
  · rwa [State.setCell_cell_ne _ _ here] at bound

theorem moveCell (h : s.Waits out) (c : CellNo) (f : Cell → Cell)
    (names : ∀ id, (f (s.cell c)).bound = some id → (s.cell c).bound = some id := by exact fun _ same => same) :
    (s.moveCell c f).Waits out := (h.onCell c f names).of_onlyPorts (State.onlyPorts_ncel _ c)

theorem nlot (h : s.Waits out) (id : Id) (cause : Cause) (hold : Option (HoldKind × Nat) := none) :
    (s.nlot id cause hold).Waits out := h.of_onlyPorts (s.onlyPorts_nlot id cause hold)

theorem notifyMember (h : s.Waits out) (m : Option Id) (n : Id → Notice) : (s.notifyMember m n).Waits out :=
  h.of_onlyPorts (s.onlyPorts_notifyMember m n)

theorem notifyMembers (h : s.Waits out) (c : CellNo) (n : Id → Notice) : (s.notifyMembers c n).Waits out :=
  h.of_onlyPorts (s.onlyPorts_notifyMembers c n)

theorem onEquip (h : s.Waits out) (id : Id) (f : Entry → Entry) : (s.onEquip id f).Waits out := by
  unfold State.onEquip
  split
  · exact h.of_same
  · exact h

/-- A queue whose places keep their lots. -/
theorem withPriorities (h : s.Waits out) {f : Waiting → Waiting} (same : ∀ w, (f w).lot = w.lot) :
    ({ s with queue := s.queue.map f } : State).Waits out :=
  h.of_links rfl (by simp [State.places, Function.comp_def, same]) fun _ _ names => names

theorem recompute (h : s.Waits out) : s.recompute.Waits out := h.withPriorities (Agreed.freshPriority_lot s)

theorem recomputeLot (h : s.Waits out) (id : Id) : (s.recomputeLot id).Waits out :=
  h.withPriorities fun w => by
    split
    · exact Agreed.freshPriority_lot s w
    · rfl

/-! ## A lot set aside -/

/-- A lot that has no place in the queue may be set aside. -/
theorem apart (h : s.Waits none) (other : ∀ l, s.lot id = some l → ¬l.Dispatchable) : s.Waits (some id) where
  once := h.once
  exact k := by
    rw [h.exact]
    by_cases here : k = id
    · subst here
      refine iff_of_false ?_ (by simp)
      rintro ⟨-, l, known, waits⟩
      exact other l known waits
    · simp [Ne.symm here]
  named := h.named

/-- A lot that leaves the queue is set aside (R79). -/
theorem leaveQueue (h : s.Waits none) (id : Id) : (s.leaveQueue id).Waits (some id) where
  once := by rw [State.places_leaveQueue]; exact h.once.filter _
  exact k := by
    show _ ↔ _ ∧ ∃ l, s.lot k = some l ∧ l.Dispatchable
    rw [State.places_leaveQueue, List.mem_filter, h.exact]
    by_cases here : k = id
    · simp [here]
    · simp [here, Ne.symm here]
  named := h.named

/-- The lot set aside needs no place in the queue. -/
theorem settled (h : s.Waits (some id)) (other : ∀ l, s.lot id = some l → ¬l.Dispatchable) : s.Waits none where
  once := h.once
  exact k := by
    rw [h.exact]
    by_cases here : k = id
    · subst here
      refine iff_of_false (by simp) ?_
      rintro ⟨-, l, known, waits⟩
      exact other l known waits
    · simp [Ne.symm here]
  named := h.named

/-- The lot set aside changes as long as what names it still may. -/
theorem relot (h : s.Waits (some id)) {f : Lot → Lot} (keep : ∀ l, (f l).id = l.id)
    (named : ∀ c l, (s.cell c).bound = some id → s.lot id = some l → (f l).state = .bound ∧ (f l).cell = some c) :
    (s.onLot id f).Waits (some id) where
  once := h.once
  exact k := by
    show k ∈ s.places ↔ _
    rw [h.exact, State.onLot_lot keep]
    by_cases here : k = id
    · simp [here]
    · simp [here]
  named c k l names known := by
    rw [State.onLot_lot keep] at known
    split at known
    · rename_i here
      subst here
      obtain ⟨m, known', rfl⟩ := Option.map_eq_some_iff.mp known
      exact named c m names known'
    · exact h.named c k l names known

/-- The lot set aside keeps its cell. -/
theorem relink (h : s.Waits (some id)) {f : Lot → Lot} (links : ∀ l : Lot, l.Links (f l)) :
    (s.onLot id f).Waits (some id) :=
  h.relot (fun l => (links l).id) fun c l names known => (links l).bound (h.named c id l names known)

/-- A lot keeps its links and its holds, whether it is set aside or not. -/
theorem onLot (h : s.Waits out) (id : Id) (f : Lot → Lot) (stays : ∀ l, s.lot id = some l → l.Stays (f l))
    (keep : ∀ l, (f l).id = l.id := by exact fun _ => rfl) : (s.onLot id f).Waits out where
  once := h.once
  exact k := by
    show k ∈ s.places ↔ _
    rw [h.exact, State.onLot_lot keep]
    split
    · rename_i here
      subst here
      refine and_congr_right fun _ => ⟨?_, ?_⟩
      · rintro ⟨l, known, waits⟩
        exact ⟨f l, by rw [known]; rfl, (stays l known).dispatchable.mpr waits⟩
      · rintro ⟨m, known, waits⟩
        obtain ⟨l, known', rfl⟩ := Option.map_eq_some_iff.mp known
        exact ⟨l, known', (stays l known').dispatchable.mp waits⟩
    · rfl
  named c k l names known := by
    rw [State.onLot_lot keep] at known
    split at known
    · rename_i here
      subst here
      obtain ⟨m, known', rfl⟩ := Option.map_eq_some_iff.mp known
      exact (stays m known').toLinks.bound (h.named c k m names known')
    · exact h.named c k l names known

/-- The lot set aside joins the queue (R78). -/
theorem joinQueue (h : s.Waits (some id)) {l : Lot} (known : s.lot id = some l) (waits : l.Dispatchable) :
    (s.joinQueue id).Waits none := by
  have stamped := h.onLot id (fun l => { l with joinStamp := s.clock.stamp }) fun _ _ => .of_same
  have joined : s.joinQueue id = { s.onLot id (fun l => { l with joinStamp := s.clock.stamp }) with
      queue := s.queue ++ [⟨id, l.basePriority⟩] } := by rw [State.joinQueue, known]; rfl
  have lot (k : Id) : (s.joinQueue id).lot k = (s.onLot id fun l => { l with joinStamp := s.clock.stamp }).lot k := by
    rw [joined]
    rfl
  refine ⟨?_, fun k => ?_, fun c k m names known => ?_⟩
  · rw [State.places_joinQueue known, List.nodup_append]
    refine ⟨h.once, List.nodup_singleton id, ?_⟩
    rintro k mem _ one rfl
    exact ((h.exact k).mp mem).1 (congrArg some (List.mem_singleton.mp one).symm)
  · rw [State.places_joinQueue known, List.mem_append, List.mem_singleton, lot]
    by_cases here : k = id
    · subst here
      refine iff_of_true (.inr rfl) ⟨by simp, _, s.onLot_lot_same _ known fun _ => rfl, ?_⟩
      exact (Lot.Stays.of_same (l := l) (m := { l with joinStamp := s.clock.stamp })).dispatchable.mpr waits
    · rw [show (k ∈ s.places) = (k ∈ (s.onLot id fun l => { l with joinStamp := s.clock.stamp }).places) from rfl,
        stamped.exact]
      simp [here, Ne.symm here]
  · rw [lot] at known
    rw [joined] at names
    exact stamped.named c k m names known

/-- No cell names a lot that is not BOUND. -/
theorem unnamed (h : s.Waits out) {l : Lot} (known : s.lot id = some l) (free : l.state ≠ .bound) (c : CellNo) :
    (s.cell c).bound ≠ some id := fun names => free (h.named c id l names known).1

/-- A lot bound to a cell has no place in the queue. -/
theorem apart_bound (h : s.Waits none) (names : (s.cell c).bound = some id) : s.Waits (some id) :=
  h.apart fun l known => Lot.not_dispatchable_of_state (by simp [(h.named c id l names known).1])

/-- A cell takes the lot set aside, which is BOUND to it (R85). -/
theorem name (h : s.Waits (some id)) (bound : ∀ l, s.lot id = some l → l.state = .bound ∧ l.cell = some c) :
    (s.onCell c fun x => { x with bound := some id }).Waits (some id) where
  once := h.once
  exact := h.exact
  named d k l names known := by
    rw [State.onCell_eq] at names
    by_cases here : d = c
    · subst here
      rw [State.setCell_cell_same] at names
      obtain rfl := Option.some.inj names
      exact bound l known
    · rw [State.setCell_cell_ne _ _ here] at names
      exact h.named d k l names known

/-- A cell and its lot let go of each other, and the lot is set aside (R86, R110). -/
theorem unlink (h : s.Waits none) (names : (s.cell c).bound = some id) {f : Lot → Lot} (keep : ∀ l, (f l).id = l.id)
    {g : Cell → Cell} (unbound : (g (s.cell c)).bound = none) (cause : Cause) :
    (((s.onLot id f).nlot id cause).onCell c g).Waits (some id) := by
  have freed := (h.apart_bound names).onCell c g (by simp [unbound])
  have unnamed (d : CellNo) (l : Lot) (named : ((s.onCell c g).cell d).bound = some id)
      (known : s.lot id = some l) : False := by
    rw [State.onCell_eq] at named
    by_cases here : d = c
    · subst here
      rw [State.setCell_cell_same, unbound] at named
      cases named
    · rw [State.setCell_cell_ne _ _ here] at named
      have at_d := (h.named d id l named known).2
      have at_c := (h.named c id l names known).2
      exact here (Option.some.inj (at_d.symm.trans at_c))
  have changed := freed.relot keep fun d l named known => (unnamed d l named known).elim
  exact changed.of_onlyPorts ((State.onlyPorts_nlot (s.onLot id f) id cause none).onCell c g)

/-- A lot with a new id that no cell names enters the table, set aside (R64). -/
theorem addLot (h : s.Waits none) {l : Lot} (fresh : s.lot l.id = none) (unnamed : ∀ c, (s.cell c).bound ≠ some l.id)
    (sequence : Stamp) : ({ s with lots := s.lots ++ [l], sequence := sequence } : State).Waits (some l.id) := by
  have lot (k : Id) (other : k ≠ l.id) :
      ({ s with lots := s.lots ++ [l], sequence := sequence } : State).lot k = s.lot k := by
    simp [State.lot, List.find?_append, Ne.symm other]
  refine ⟨h.once, fun k => ?_, fun c k m names known => ?_⟩
  · show k ∈ s.places ↔ _
    rw [h.exact]
    by_cases here : k = l.id
    · simp [here, fresh]
    · simp [lot k here, Ne.symm here]
  · have other : k ≠ l.id := fun same => unnamed c (same ▸ names)
    exact h.named c k m names (lot k other ▸ known)

/-- A lot leaves the table and the queue (R73). -/
theorem freeLot (h : s.Waits none) (l : Lot) (cause : Cause) : (s.freeLot l cause).Waits none := by
  let t : State := { (s.leaveQueue l.id).removeHoldsOf l.id with lots := s.lots.filter fun x => x.id ≠ l.id }
  have gone : t.lot l.id = none := by
    show (s.lots.filter _).find? _ = none
    simp
  have lot (k : Id) (other : k ≠ l.id) : t.lot k = s.lot k := by
    show (s.lots.filter _).find? _ = s.lots.find? _
    rw [List.find?_filter]
    congr 1
    funext x
    by_cases at_k : x.id = k <;> simp [at_k, other]
  have left := h.leaveQueue l.id
  have freed : t.Waits none := by
    refine ⟨left.once, fun k => ?_, fun c k m names known => ?_⟩
    · show k ∈ (s.leaveQueue l.id).places ↔ _
      rw [left.exact]
      by_cases here : k = l.id
      · simp [here, gone]
      · simp [lot k here, Ne.symm here]
    · have other : k ≠ l.id := by
        rintro rfl
        rw [gone] at known
        cases known
      exact h.named c k m names (lot k other ▸ known)
  exact freed.of_same

end State.Waits

end Sys2Proof.Machine
end

section
/-! Holds, checks, runs, bindings, negotiations, gates and ticks keep the dispatch queue on the dispatchable lots
(R74; chapters 3, 5, 6, 8, 9 and 10). -/

namespace Sys2Proof.Machine

-- one theorem at a time: many at once, each with a thread of its own, can exceed the memory limit
set_option Elab.async false

/-! ## A placement leaves the lots that cells name -/

theorem State.OnlyPorts.bound {s t : State} (h : s.OnlyPorts t) (c : CellNo) : (t.cell c).bound = (s.cell c).bound := by
  rw [h.cell]

theorem State.onCell_bound {s : State} {c : CellNo} {f : Cell → Cell} (same : (f (s.cell c)).bound = (s.cell c).bound)
    (d : CellNo) : ((s.onCell c f).cell d).bound = (s.cell d).bound := by
  rw [State.onCell_eq]
  by_cases here : d = c
  · subst here
    rw [State.setCell_cell_same, same]
  · rw [State.setCell_cell_ne _ _ here]

theorem State.stopRun_bound (s : State) (c d : CellNo) : ((s.stopRun c).cell d).bound = (s.cell d).bound := by
  obtain e | ⟨r, -, -, u, ports, e⟩ := s.stopRun_cases c <;> rw [e]
  exact (State.onCell_bound (s := u) (f := fun x => { x with run := some { r with stopFlag := true }, state := .stopping })
    rfl d).trans (ports.bound d)

theorem State.firstHold_bound (s : State) (id : Id) (d : CellNo) :
    ((s.firstHold id).cell d).bound = (s.cell d).bound := by
  obtain e | e | ⟨c, e⟩ | e := s.firstHold_cases id <;> rw [e]
  · rfl
  · exact s.stopRun_bound c d
  · exact (State.onlyPorts_nlot _ id .withdrawn none).bound d

theorem State.appendHold_bound (s : State) (h : HoldRecord) (d : CellNo) :
    ((s.appendHold h).cell d).bound = (s.cell d).bound := by
  have shown (u : State) (cause : Cause) (hold : Option (HoldKind × Nat)) :=
    (u.onlyPorts_nlot h.lot cause hold).bound d
  unfold State.appendHold
  dsimp only
  split
  · exact (State.firstHold_bound ..).trans (shown ..)
  · exact shown ..

theorem State.setOverflow_bound (s : State) (id : Id) (d : CellNo) :
    ((s.setOverflow id).cell d).bound = (s.cell d).bound := by
  have shown := (State.onlyPorts_nlot (s.onLot id fun l => { l with overflow := true }) id .overflowSet none).bound d
  obtain e | ⟨l, -, -, e | e⟩ := s.setOverflow_cases id <;> rw [e]
  · exact shown
  · exact (State.firstHold_bound ..).trans shown

theorem State.placeHold_bound (s : State) (src : Option Port) (id : Id) (kind : HoldKind) (a n : Nat) (d : CellNo) :
    ((s.placeHold src id kind a n).cell d).bound = (s.cell d).bound := by
  obtain e | ⟨-, -, e⟩ | ⟨l, -, -, -, e⟩ := s.placeHold_cases src id kind a n <;> rw [e]
  · exact s.setOverflow_bound id d
  · exact s.appendHold_bound _ d

theorem State.placeCloseHold_bound (s : State) (src : Option Port) (id : Id) (hold : CloseHold) (d : CellNo) :
    ((s.placeCloseHold src id hold).cell d).bound = (s.cell d).bound := by
  unfold State.placeCloseHold
  split
  · exact s.placeHold_bound ..
  · rfl

theorem State.bound_of_boundLot {s : State} {c : CellNo} {l : Lot} (h : s.boundLot c = some l) :
    (s.cell c).bound = some l.id := by
  obtain ⟨id, names, known⟩ := Option.bind_eq_some_iff.mp h
  rw [names, s.lot_id known]

namespace State.Waits

variable {s t : State} {out : Option Id} {id : Id} {c : CellNo}

/-- A cell comes to another state. -/
theorem enter (h : s.Waits out) (c : CellNo) (st : CellState) :
    (s.moveCell c fun x => { x with state := st }).Waits out := h.moveCell c _

/-! ## Holds (chapter 8) -/

theorem stopRun (h : s.Waits out) (c : CellNo) : (s.stopRun c).Waits out := by
  obtain e | ⟨r, -, -, u, ports, e⟩ := s.stopRun_cases c <;> rw [e]
  · exact h
  · exact (h.of_onlyPorts ports).moveCell c _

theorem withdraw (h : s.Waits out) (released : ∀ l, s.lot id = some l → l.state = .released) :
    (s.withdraw id).Waits out := by
  have dropped : (s.dropShipment id).Waits out := h.of_same
  refine (dropped.onLot id (fun l => { l with state := .accepted }) fun l known => ?_).nlot id _
  exact .of_past (by simp [Lot.Past, released l known]) (by simp [Lot.Past])

/-- A lot that is held already has no place in the queue to lose (R143). -/
theorem firstHold (h : s.Waits none) (held : ∀ l, s.lot id = some l → l.unheld = false) :
    (s.firstHold id).Waits none := by
  unfold State.firstHold
  split
  · exact h
  · rename_i l known
    split
    · exact (h.leaveQueue id).settled fun m known => Lot.not_dispatchable_of_held (held m known)
    · split
      · exact h.stopRun _
      · exact h
    · rename_i released
      exact h.withdraw fun m known' => Option.some.inj (known.symm.trans known') ▸ released
    all_goals exact h

/-- A lot comes to be held, and a first hold takes it out of the queue (R139, R140, R143). -/
theorem held (h : s.Waits none) {f : Lot → Lot} {l : Lot} (known : s.lot id = some l) (links : ∀ l : Lot, l.Links (f l))
    (state : (f l).state = l.state) (held : (f l).unheld = false) (lots : t.lots = (s.onLot id f).lots)
    (queue : t.queue = s.queue) (cells : t.cells = s.cells) :
    (if l.unheld = true then t.firstHold id else t).Waits none := by
  have known' : t.lot id = some (f l) := by
    rw [State.lot, lots]
    exact (State.onLot_lot (fun l => (links l).id) id).trans (by rw [if_pos rfl, known]; rfl)
  have out (m : Lot) (at_id : t.lot id = some m) : m.unheld = false :=
    Option.some.inj (known'.symm.trans at_id) ▸ held
  by_cases waits : l.Dispatchable
  · obtain ⟨waiting, unheld⟩ := waits
    have leaves : t.firstHold id = t.leaveQueue id := by simp [State.firstHold, known', state, waiting]
    rw [if_pos unheld, leaves]
    have left : (t.leaveQueue id).Waits (some id) :=
      ((h.leaveQueue id).relink links).of_same lots cells (by simp [State.leaveQueue, State.onLot, queue])
    exact left.settled fun m at_id => Lot.not_dispatchable_of_held (out m at_id)
  · have apart := h.apart (id := id) fun m at_id => Option.some.inj (known.symm.trans at_id) ▸ waits
    have raised : t.Waits none := ((apart.relink links).of_same lots cells queue).settled
      fun m at_id => Lot.not_dispatchable_of_held (out m at_id)
    exact of_ite (fun _ => raised.firstHold out) fun _ => raised

theorem appendHold (h : s.Waits none) {x : HoldRecord} {l : Lot} (known : s.lot x.lot = some l) :
    (s.appendHold x).Waits none := by
  have e : s.appendHold x =
      let t := (({ s with holds := s.holds ++ [x] } : State).onLot x.lot fun l =>
        { l with holdCount := l.holdCount + 1 }).nlot x.lot .holdPlaced (some (x.kind, x.arg))
      if l.unheld = true then t.firstHold x.lot else t := by
    rw [State.appendHold, State.lotUnheld_eq known]
  rw [e]
  exact h.held (f := fun l => { l with holdCount := l.holdCount + 1 }) known (fun _ => ⟨rfl, rfl, .inl rfl⟩) rfl
    (by simp [Lot.unheld]) (State.nlot_lots ..) (State.nlot_queue ..) (State.nlot_cells ..)

theorem setOverflow (h : s.Waits none) (id : Id) : (s.setOverflow id).Waits none := by
  unfold State.setOverflow
  split
  · exact h
  · rename_i l known
    exact of_ite (fun _ => h) fun _ => h.held (f := fun l => { l with overflow := true }) known
      (fun _ => ⟨rfl, rfl, .inl rfl⟩) rfl (by simp [Lot.unheld]) (State.nlot_lots ..) (State.nlot_queue ..)
      (State.nlot_cells ..)

theorem placeHold (h : s.Waits none) (src : Option Port) (id : Id) (kind : HoldKind) (a d : Nat) :
    (s.placeHold src id kind a d).Waits none := by
  obtain e | ⟨-, -, e⟩ | ⟨l, known, -, -, e⟩ := s.placeHold_cases src id kind a d <;> rw [e]
  · exact h
  · exact h.setOverflow id
  · exact h.appendHold known

/-! ## Checks and sample decisions (chapters 7 and 9) -/

theorem checkYield (h : s.Waits none) (src : Option Port) (id : Id) : (s.checkYield src id).Waits none := by
  unfold State.checkYield
  split
  · exact h
  · split
    · exact of_ite (fun _ => h.placeHold ..) fun _ => h
    · exact h

theorem checkBin (h : s.Waits none) (src : Option Port) (id : Id) (b : Fin 16) :
    (State.checkBin src id s b).Waits none := by
  unfold State.checkBin
  split
  · exact h
  · dsimp only
    split
    · exact of_ite (fun _ => h.placeHold ..) fun _ => h
    · exact h

theorem checkRatios (h : s.Waits none) (src : Option Port) (id : Id) : (s.checkRatios src id).Waits none :=
  List.foldlRecOn _ _ (h.checkYield src id) fun _ u b _ => u.checkBin src id b

theorem decideSample (h : s.Waits none) (id : Id) : (s.decideSample id).Waits none := by
  unfold State.decideSample
  split
  · rename_i l known
    refine of_ite (fun decided => ?_) fun _ => h
    have past (m : Lot) (known' : s.lot id = some m) : m.Past := by
      obtain rfl := Option.some.inj (known.symm.trans known')
      have tested : l.state = .tested := of_decide_eq_true (Bool.and_eq_true_iff.mp decided).1
      simp [Lot.Past, tested]
    refine of_ite (fun _ => ?_) fun _ => ?_
    · exact (h.onLot id (fun m => { m with state := .accepted, rejects := 0 }) fun m known' =>
        .of_past (past m known') (by simp [Lot.Past])).nlot id .accepted
    · have sent := h.onLot id
        (fun m => { m with sampleSize := some (sampleSize (s.product l) (l.passed (s.plan (s.product l)))),
                           state := .sampling, samplePending := true })
        fun m known' => .of_past (past m known') (by simp [Lot.Past])
      exact (sent.of_onlyPorts (State.onlyPorts_notify _ qaPort _)).nlot id .sampling
  · exact h

theorem attentionTest (h : s.Waits out) : s.attentionTest.Waits out := of_ite (fun _ => h.of_same) fun _ => h

/-! ## Runs and preparations (chapter 6) -/

/-- The lot of a cell leaves it TESTED (R110). -/
theorem lotTested (h : s.Waits none) (names : (s.cell c).bound = some id) (src : Option Port) :
    (s.lotTested src c id).Waits none := by
  let f : Lot → Lot := fun l => { l with cell := none, state := .tested }
  have left := h.unlink (f := f) (g := fun x => { x with bound := none }) names (fun _ => rfl) rfl .tested
  have tested := left.settled fun l known => by
    have known : ((s.onLot id f).nlot id .tested).lot id = some l := known
    rw [State.nlot_lot, State.onLot_lot (by exact fun _ => rfl), if_pos rfl] at known
    obtain ⟨m, -, rfl⟩ := Option.map_eq_some_iff.mp known
    exact Lot.not_dispatchable_of_state (by simp [f])
  exact ((tested.checkRatios src id).decideSample id).enter c .idle

theorem completePass (h : s.Waits out) (id : Id) (n : Nat) : (s.onLot id fun l => l.completePass n).Waits out :=
  h.onLot id _ (fun l _ => l.completePass_stays n) fun l => (l.completePass_stays n).id

theorem openRun (h : s.Waits none) (src : Option Port) (c : CellNo) (l : Lot) : (s.openRun src c l).Waits none := by
  have counted := h.onLot l.id (fun m => { m with runCount := l.runCount + 1 }) fun _ _ => .of_same
  have running := counted.moveCell c fun x =>
    { x with run := some (Run.opened l (l.runCount + 1) (s.cell c).active), state := .running }
  exact of_ite (fun _ => (h.placeHold ..).enter c .paused)
    fun _ => running.notifyMembers c _

theorem goOn (h : s.Waits none) (src : Option Port) (c : CellNo) : (s.goOn src c).Waits none := by
  unfold State.goOn
  split
  · exact h
  · rename_i l bound
    have completed := h.completePass l.id (s.product l).maxRetests
    exact of_ite (fun _ => h.openRun src c l) fun _ => of_ite (fun _ => completed.openRun src c _)
      fun _ => completed.lotTested (c := c) (State.bound_of_boundLot (s := s) bound) src

theorem testPreparation (h : s.Waits none) (src : Option Port) (c : CellNo) :
    (s.testPreparation src c).Waits none := by
  unfold State.testPreparation
  split
  · refine of_ite (fun _ => ?_) fun _ => h
    have discarded := h.onCell c fun x => { x with preparation := none }
    dsimp only
    split
    · exact of_ite (fun _ => discarded.goOn src c) fun _ => discarded.moveCell c _
    · exact discarded
  · exact h

theorem buildProgram (h : s.Waits none) (c : CellNo) (p : Product) : (s.buildProgram c p).1.Waits none := by
  unfold State.buildProgram
  split
  · exact h
  · dsimp only
    exact (h.notifyMember _ _).onCell c _

theorem buildThermal (h : s.Waits none) (c : CellNo) (p : Product) : (s.buildThermal c p).1.Waits none := by
  unfold State.buildThermal
  dsimp only
  split
  · split
    · split <;> exact h
    · exact h
  · dsimp only
    exact (h.notifyMember _ _).onCell c _

theorem prepare (h : s.Waits none) (src : Option Port) (c : CellNo) : (s.prepare src c).Waits none := by
  unfold State.prepare
  split
  · exact h
  · exact (((h.buildProgram c _).buildThermal c _).moveCell c _).testPreparation src c

/-! ## Bindings and unbindings (chapter 5) -/

/-- A lot of the queue leaves it for a cell (R85). -/
theorem bind (h : s.Waits none) (queued : id ∈ s.places) (src : Option Port) (c : CellNo) :
    (s.bind src id c).Waits none := by
  obtain ⟨-, l, known, waiting, -⟩ := (h.exact id).mp queued
  let f : Lot → Lot := fun l => { l with state := .bound, cell := some c }
  have unnamed := h.unnamed known (by simp [waiting])
  have taken : (((s.leaveQueue id).onLot id f).nlot id .bound).Waits (some id) :=
    ((h.leaveQueue id).relot (f := f) (fun _ => rfl) fun d _ names => absurd names (unnamed d)).nlot id .bound
  have bound (m : Lot) (at_id : (((s.leaveQueue id).onLot id f).nlot id .bound).lot id = some m) :
      m.state = .bound ∧ m.cell = some c := by
    rw [State.nlot_lot, State.onLot_lot (by exact fun _ => rfl), if_pos rfl] at at_id
    obtain ⟨_, -, rfl⟩ := Option.map_eq_some_iff.mp at_id
    exact ⟨rfl, rfl⟩
  have named := (taken.name bound).settled fun m at_id =>
    Lot.not_dispatchable_of_state (by simp [(bound m at_id).1])
  exact named.prepare src c

theorem serve (h : s.Waits none) (src : Option Port) (c : CellNo) : (s.serve src c).Waits none := by
  refine State.serve_keeps (State.Waits none) (fun u id choice h => ?_) h
  obtain ⟨w, queued, rfl, -⟩ := State.choice_bindable choice
  exact h.bind (List.mem_map_of_mem queued) src c

theorem offer (h : s.Waits none) (src : Option Port) (id : Id) : (s.offer src id).Waits none := by
  unfold State.offer
  generalize s.queue.length = fuel
  induction fuel generalizing s with
  | zero => exact h
  | succ n ih =>
    unfold State.offerUpTo
    split
    · exact h
    · rename_i c picked
      refine of_ite (fun _ => ih (h.serve src c)) fun _ => ?_
      obtain ⟨w, found, -⟩ := Option.bind_eq_some_iff.mp picked
      have at_id : w.lot = id := by simpa using List.find?_some found
      exact (h.bind (at_id ▸ List.mem_map_of_mem (List.mem_of_find?_eq_some found)) src c).serve src c

/-- The lot set aside comes back to the queue if it is dispatchable (R78, R86). -/
theorem rejoin (h : s.Waits (some id)) (waiting : ∀ l, s.lot id = some l → l.state = .waiting) :
    (if s.lotUnheld id = true then s.joinQueue id else s).Waits none := by
  cases known : s.lot id with
  | none =>
    have absent : s.lotUnheld id = false := by simp [State.lotUnheld, known]
    rw [absent]
    exact h.settled fun l at_id => by simp [known] at at_id
  | some l =>
    rw [State.lotUnheld_eq known]
    refine of_ite (fun unheld => h.joinQueue known ⟨waiting l known, unheld⟩) fun held => h.settled fun m at_id => ?_
    obtain rfl := Option.some.inj (known.symm.trans at_id)
    exact Lot.not_dispatchable_of_held (by simpa using held)

/-- A lot that its cell names goes back to WAITING (R86). -/
theorem unbind (h : s.Waits none) (names : (s.cell c).bound = some id) {f : Cell → Cell}
    (unbound : (f { s.cell c with bound := none }).bound = none) (src : Option Port) :
    (s.unbind src c id f).Waits none := by
  let g : Lot → Lot := fun l => { l with cell := none, state := .waiting }
  have freed := (h.unlink (f := g) (g := fun x => f { x with bound := none }) names (fun _ => rfl) unbound
    .unbound).of_onlyPorts (State.onlyPorts_ncel _ c)
  have served := (freed.rejoin fun l known => by
    have known : ((s.onLot id g).nlot id .unbound).lot id = some l := known
    rw [State.nlot_lot, State.onLot_lot (by exact fun _ => rfl), if_pos rfl] at known
    obtain ⟨m, -, rfl⟩ := Option.map_eq_some_iff.mp known
    rfl).serve src c
  exact of_ite (fun _ => served.offer src id) fun _ => served

theorem serveIdle (h : s.Waits none) (src : Option Port) : (s.serveIdle src).Waits none :=
  List.foldlRecOn _ _ h fun _ u c _ => u.serve src c

/-! ## The ends of runs and preparations, and lots that become unheld (chapter 6, R148) -/

theorem placeCloseHold (h : s.Waits none) (src : Option Port) (id : Id) (hold : CloseHold) :
    (s.placeCloseHold src id hold).Waits none := by
  unfold State.placeCloseHold
  split
  · exact h.placeHold ..
  · exact h

theorem afterClose (h : s.Waits none) (names : (s.cell c).bound = some id) (src : Option Port) :
    (s.afterClose src c id).Waits none := by
  unfold State.afterClose
  split
  · exact h
  · rename_i l known
    have completed := h.completePass id (s.product l).maxRetests
    cases l.hasWork with
    | true =>
      exact of_ite (fun _ => h.lotTested names src) fun _ =>
        of_ite (fun _ => h.openRun src c _) fun _ => h.enter c .paused
    | false =>
      exact of_ite (fun _ => completed.lotTested names src) fun _ =>
        of_ite (fun _ => completed.openRun src c _) fun _ => completed.enter c .paused

theorem closeRun (h : s.Waits none) (src : Option Port) (c : CellNo) (hold : CloseHold) (reason : EndReason) :
    (s.closeRun src c hold reason).Waits none := by
  unfold State.closeRun
  split
  · exact h
  · rename_i id names
    refine ((((h.onCell c fun x => { x with run := none }).placeCloseHold src id hold).placeCloseHold src id
      _).afterClose ?_ src).serve src c
    rw [State.placeCloseHold_bound, State.placeCloseHold_bound, State.onCell_bound rfl, names]

theorem evaluateEnd (h : s.Waits none) (src : Option Port) (c : CellNo) (x : Run) (count : Nat)
    (reason : EndReason) : (s.evaluateEnd src c x count reason).1.Waits none := by
  unfold State.evaluateEnd
  dsimp only
  split
  · exact (h.onCell c _).moveCell c _
  · exact (h.onCell c _).closeRun src c _ _

theorem testClose (h : s.Waits none) (src : Option Port) (c : CellNo) : (s.testClose src c).Waits none := by
  unfold State.testClose
  split
  · split
    · exact of_ite (fun _ => h.closeRun src c _ _) fun _ => h
    · exact h
  · exact h

theorem closeExpired (h : s.Waits none) (src : Option Port) (c : CellNo) : (s.closeExpired src c).Waits none := by
  unfold State.closeExpired
  split
  · split
    · exact h.closeRun src c _ _
    · exact h
  · exact h

/-- A cell that changes in other things and then lets its lot go. -/
theorem unbind_after (h : s.Waits none) {l : Lot} (bound : s.boundLot c = some l) {f g : Cell → Cell}
    (same : (g (s.cell c)).bound = (s.cell c).bound) (unbound : ∀ x : Cell, (f { x with bound := none }).bound = none)
    (src : Option Port) : ((s.onCell c g).unbind src c l.id f).Waits none :=
  (h.onCell c g (by simp [same])).unbind ((State.onCell_bound same c).trans (State.bound_of_boundLot bound))
    (unbound _) src

theorem loadFailed (h : s.Waits none) (src : Option Port) (c : CellNo) : (s.loadFailed src c).Waits none := by
  unfold State.loadFailed
  split
  · exact h
  · exact h.unbind_after ‹_› rfl (fun _ => rfl) src

theorem settleFailed (h : s.Waits none) (src : Option Port) (c : CellNo) : (s.settleFailed src c).Waits none := by
  unfold State.settleFailed
  split
  · exact h
  · exact h.unbind_after ‹_› rfl (fun _ => rfl) src

/-- A lot set aside, from which the last hold has gone, goes on from where it was stopped (R148). -/
theorem becomeUnheld (h : s.Waits (some id)) (unheld : s.lotUnheld id = true) (src : Option Port) :
    (s.becomeUnheld src id).Waits none := by
  unfold State.becomeUnheld
  split
  · exact h.settled fun l known => by simp [*] at known
  · rename_i l known
    rw [State.lotUnheld_eq known] at unheld
    have still (other : l.state ≠ .waiting) : s.Waits none := h.settled fun m known' =>
      Option.some.inj (known.symm.trans known') ▸ Lot.not_dispatchable_of_state other
    split
    · rename_i waiting
      exact (h.joinQueue known ⟨waiting, unheld⟩).offer src id
    · rename_i bound
      have h := still (by simp [bound])
      split
      · exact of_ite (fun _ => (h.goOn src _).serve src _) fun _ => h
      · exact h
    · rename_i tested
      exact (still (by simp [tested])).decideSample id
    · rename_i sampling
      have h := still (by simp [sampling])
      exact of_ite (fun _ => h) fun _ => h.placeHold ..
    all_goals
      rename_i state
      exact still (by simp [state])

/-! ## Negotiation, formation and disturbances (chapter 3) -/

theorem enterOffer (h : s.Waits out) (c : CellNo) (handler tester : Bool := false) :
    (s.enterOffer c handler tester).Waits out := by
  have offered := h.moveCell c fun x =>
    { x with
      state := .offer, fault := none,
      negotiation := some (Negotiation.fresh handler tester s.tables.parameters.negotiation) }
  have asked (m : Option Id) :=
    of_ite (p := handler = true) (fun _ => offered) fun _ => offered.notifyMember m fun id => .nabq id c
  exact of_ite (fun _ => asked _) fun _ => (asked _).notifyMember _ _

theorem enterFault (h : s.Waits out) (c : CellNo) (reason : FaultReason) : (s.enterFault c reason).Waits out :=
  h.moveCell c _

theorem reported (h : s.Waits none) (c : CellNo) : (s.reported c).Waits none := by
  unfold State.reported
  split
  · exact of_ite (fun _ => h.enterFault c _) fun _ => (h.moveCell c _).notifyMembers c _
  · exact h

theorem formed (h : s.Waits none) (src : Option Port) (c : CellNo) (cap : Capability) :
    (s.formed src c cap).Waits none := by
  have formed := h.onCell c fun x => x.formed cap
  rw [State.formed_eq]
  split
  · exact (formed.moveCell c _).serve src c
  · rename_i l bound
    refine of_ite (fun _ => (formed.prepare src c).serve src c) fun _ => ?_
    exact formed.unbind (State.bound_of_boundLot bound) rfl src

theorem disturbMove (h : s.Waits none) (c : CellNo) (d : Disturbance) : (s.disturbMove c d).Waits none := by
  cases d with
  | stale => exact h.moveCell c _
  | reannounce => exact of_ite (fun _ => h.moveCell c _) fun _ => h.enterOffer c

theorem disturb (h : s.Waits none) (src : Option Port) (c : CellNo) (d : Disturbance) :
    (s.disturb src c d).Waits none := by
  refine of_ite (fun _ => h) fun _ => ?_
  have moved := (h.onCell c fun x => { x with run := none, preparation := none }).disturbMove c d
  dsimp only
  split
  · exact moved.placeHold ..
  · exact moved

theorem memberReturn (h : s.Waits none) (c : CellNo) (id : Id) : (s.memberReturn c id).Waits none := by
  unfold State.memberReturn
  dsimp only
  split
  · exact of_ite (fun _ => h.enterOffer c) fun _ => h
  · exact of_ite (fun _ => h) fun _ => h.notifyMember _ _
  · refine of_ite (fun _ => h) fun _ => ?_
    split
    · exact h.notifyMember _ _
    · exact h
  · exact h

theorem reportReturn (h : s.Waits none) (c : Option CellNo) (id : Id) : (s.reportReturn c id).Waits none := by
  cases c with
  | none => exact h
  | some c => exact h.memberReturn c id

theorem clearMembership (h : s.Waits out) (m : Option Id) : (s.clearMembership m).Waits out := by
  cases m with
  | none => exact h
  | some id => exact h.onEquip id _

theorem undock (h : s.Waits none) (src : Option Port) (c : CellNo) : (s.undock src c).Waits none := by
  have told := ((h.clearMembership (s.cell c).handler).clearMembership (s.cell c).tester).notifyMembers c
    fun id => .ndis id c
  unfold State.undock
  dsimp only
  split
  · rename_i id names
    refine told.unbind ?_ rfl src
    rw [(State.onlyPorts_notifyMembers _ c _).cell, State.clearMembership_cell, State.clearMembership_cell, names]
  · exact told.moveCell c _ (by simp [Cell.vacant])

/-! ## Gates, the period minute and the ticks (chapter 10) -/

theorem evaluateGates (h : s.Waits none) (src : Option Port) : (s.evaluateGates src).Waits none := by
  have recorded (d e : GateState) :
      ({ s with clock := { s.clock with dispatchGate := d, releaseGate := e } } : State).Waits none := h.of_same
  have delivered (d e was now : GateState) : (State.deliverDispatch
      { s with clock := { s.clock with dispatchGate := d, releaseGate := e } } src was now).Waits none :=
    of_ite (fun _ => (recorded d e).serveIdle src) fun _ => recorded d e
  have offered {u : State} (k : u.Waits none) (o : OfferState) : (u.offerAll o).Waits none := k.of_same
  exact of_ite (fun _ => (offered (delivered ..) _).attentionTest) fun _ =>
    of_ite (fun _ => offered (delivered ..) _) fun _ => delivered ..

theorem periodChanged (h : s.Waits none) (src : Option Port) : (s.periodChanged src).Waits none :=
  evaluateGates (of_ite (fun _ => h.of_same) fun _ => h) src

theorem minute (h : s.Waits none) : s.minute.Waits none := by
  have advanced (clock : Clock) : ({ s with clock := clock } : State).recompute.Waits none :=
    (h.of_same (t := { s with clock := clock })).recompute
  have gated {u : State} (k : u.Waits none) :
      (if u.configState = .loading then u else u.evaluateGates none).Waits none :=
    of_ite (fun _ => k) fun _ => k.evaluateGates none
  exact of_ite (fun _ => (gated (advanced _)).of_same) fun _ => gated (advanced _)

theorem of_empty (lots : t.lots = []) (queue : t.queue = []) : t.Waits none := by
  constructor <;> simp [State.places, State.lot, queue, lots]

theorem endLoad (h : s.Waits none) (reply : StoreReply) : (s.endLoad reply).Waits none := by
  have ports : (s.onPorts PortUnit.loadEnds).Waits none := h.of_same
  exact periodChanged (of_ite (fun _ => ports.of_same) fun _ => ports.of_same) none

theorem endSoak (h : s.Waits none) (c : CellNo) : (s.endSoak c).Waits none :=
  of_ite (fun _ => ((h.onCell c _).testPreparation none c).serve none c) fun _ => h

theorem takeDue (h : s.Waits none) (d : Due) : (s.takeDue d).Waits none := by
  cases d with
  | negotiation c => exact of_ite (fun _ => h.enterFault c _) fun _ => h
  | load c => exact of_ite (fun _ => h.loadFailed none c) fun _ => h
  | settle c => exact of_ite (fun _ => h.settleFailed none c) fun _ => h
  | close c => exact of_ite (fun _ => h.closeExpired none c) fun _ => h
  | soak c => exact h.endSoak c
  | stale i =>
    simp only [State.takeDue, State.goStale]
    split
    · refine of_ite (fun _ => ?_) fun _ => h
      split
      · exact (h.of_same (t := s.setEntry i _)).disturb ..
      · exact h.of_same
    · exact h
  | removal i =>
    simp only [State.takeDue, State.removeEntry]
    split
    · exact of_ite (fun _ => h.of_same) fun _ => h
    · exact h
  | minute => exact h.minute
  | floorReset => exact .of_empty rfl rfl

theorem settle (h : s.Waits none) : s.settle.Waits none :=
  List.foldlRecOn _ _ h.of_same fun _ u d _ => u.takeDue d

theorem takeListed (h : s.Waits none) (d : Due) : (s.takeListed d).Waits none :=
  of_ite (fun _ => (h.of_same (t := { s with due := s.due.erase d })).takeDue d) fun _ => h

theorem second (h : s.Waits none) : s.second.Waits none :=
  h.of_links (by simp only [State.second]) (by simp only [State.places, State.second])
    fun c id names => by rwa [State.second_cell] at names

end State.Waits

end Sys2Proof.Machine
end

section
/-! The owners of the requests, every command and every step keep the dispatch queue on exactly the WAITING and unheld
lots (R74). -/

namespace Sys2Proof.Machine

-- one theorem at a time: many at once, each with a thread of its own, can exceed the memory limit
set_option Elab.async false

open State (Waits Agreed)

/-- The owner keeps the dispatch queue on the dispatchable lots, on every request that the reader takes. -/
def KeepsQueue {α : Type} (read : List Byte → Checked α) (owner : Owner α) : Prop :=
  ∀ f a s, read f.payload = .ok a → s.Agreed none → s.Waits none → ((owner f a s).1).Waits none

theorem State.Waits.of_outcomes {p : Prop} [Decidable p] {x y : State × Reply} (h : p → x.1.Waits none)
    (k : ¬p → y.1.Waits none) : ((if p then x else y).1).Waits none := by
  split
  · exact h ‹_›
  · exact k ‹_›

/-! ## Lots (chapter 4) -/

theorem LentFields.settled_overflow (a : LentFields) (sequence stamp : Stamp) (restored : Bool) (n : Nat) :
    ((a.entered sequence stamp).settledEntry restored n).overflow = false := by
  obtain ⟨k, final, now, next, e⟩ := (a.entered sequence stamp).completePass_cases n
  simp only [Lot.settledEntry, e]
  split
  · split <;> rfl
  · rfl

theorem State.Waits.enterLot {s : State} (h : s.Waits none) {l : Lot} (fresh : s.lot l.id = none)
    (unnamed : ∀ c, (s.cell c).bound ≠ some l.id) (unheld : l.unheld = true)
    (state : l.state = .waiting ∨ l.state = .tested) (src : Option Port) : (s.enterLot src l).Waits none := by
  have entered := (h.addLot fresh unnamed (nextSequence s.sequence)).nlot l.id .entered
  have known : (({ s with lots := s.lots ++ [l], sequence := nextSequence s.sequence } : State).nlot l.id
      .entered).lot l.id = some l := by
    rw [State.lot] at fresh
    rw [State.nlot_lot, State.lot, List.find?_append, fresh]
    simp
  refine .of_ite (fun tested => ?_) fun untested => ?_
  · have settled := entered.settled fun m at_id =>
      Option.some.inj (known.symm.trans at_id) ▸ Lot.not_dispatchable_of_state (by simp [tested])
    exact (settled.checkRatios src l.id).decideSample l.id
  · exact (entered.joinQueue known ⟨state.resolve_right untested, unheld⟩).offer src l.id

theorem lentConfigured_queue {read : List Byte → Checked LentFields} : KeepsQueue read lentConfigured := by
  intro _ a s _ agreed h
  refine .of_outcomes (fun _ => h) fun _ => .of_outcomes (fun _ => h) fun fresh => .of_outcomes (fun _ => h) fun _ =>
    .of_outcomes (fun _ => h) fun _ => ?_
  obtain ⟨id, -, count, state⟩ := a.settled s.sequence s.clock.stamp a.restore.isSome
    (s.tables.products[a.product]).maxRetests
  have fresh : s.lot a.lot = none := by simpa using fresh
  refine h.enterLot (by rw [id]; exact fresh) (fun c names => ?_) ?_ state _
  · obtain ⟨l, known, -⟩ := agreed.linked.names c _ names
    rw [id, fresh] at known
    cases known
  · rw [Lot.unheld, a.settled_overflow]
    simpa using count

theorem afterReattempt_queue {α : Type} {read : List Byte → Checked α} {owner : Owner α}
    (keeps : KeepsQueue read owner) : KeepsQueue read (afterReattempt owner) :=
  fun f a s reads agreed h => .of_outcomes (fun _ => h.of_same) fun _ => keeps f a s reads agreed h

theorem lremOwner_queue {read : List Byte → Checked Id} : KeepsQueue read lremOwner := by
  intro _ id s _ _ h
  unfold lremOwner
  split
  · exact h
  · exact .of_outcomes (fun _ => h) fun _ => h.freeLot _ _

theorem lpriOwner_queue {read : List Byte → Checked (Id × Nat)} : KeepsQueue read lpriOwner := by
  intro _ a s _ _ h
  unfold lpriOwner
  split
  · exact h
  · have changed := h.onLot a.1 (fun l => { l with basePriority := a.2 }) fun _ _ => .of_same
    exact .of_ite (fun _ => (changed.recomputeLot a.1).offer _ _) fun _ => changed

/-- A lot declared short keeps its links and its holds (R67). -/
theorem Lot.declareShort_stays (l : Lot) (n : Nat) : l.Stays (l.declareShort.completePass n) := by
  obtain ⟨k, final, now, next, e⟩ := l.declareShort.completePass_cases n
  rw [e]
  exact .of_same

theorem lshtOwner_queue {read : List Byte → Checked Id} : KeepsQueue read lshtOwner := by
  intro _ id s _ _ h
  unfold lshtOwner
  split
  · exact h
  · rename_i l known
    refine .of_outcomes (fun _ => h) fun refused => ?_
    have free : l.state ≠ .bound := fun bound => refused (.inl bound)
    have short := h.onLot id (fun m => m.declareShort.completePass (s.product l).maxRetests)
      (fun m _ => m.declareShort_stays _) fun m => (m.declareShort_stays _).id
    dsimp only
    split
    · exact short
    · have unnamed (c : CellNo) := h.unnamed known free c
      have left := ((short.leaveQueue id).relot (f := fun m => { m with state := .tested }) (fun _ => rfl)
        fun c _ names => absurd names (unnamed c)).settled fun m at_id => ?_
      · exact (((left.of_same (t := State.leaveQueue (State.onLot _ id _) id)).nlot id .tested).checkRatios _
          id).decideSample id
      · rw [State.onLot_lot (by exact fun _ => rfl), if_pos rfl] at at_id
        obtain ⟨m, -, rfl⟩ := Option.map_eq_some_iff.mp at_id
        exact Lot.not_dispatchable_of_state (by simp)

/-! ## Holds (chapter 8) -/

theorem holdOwner_queue {read : List Byte → Checked (Id × Nat)} (p : Port) : KeepsQueue read (holdOwner p) := by
  intro _ a s _ _ h
  unfold holdOwner
  dsimp only
  split
  · exact h
  · rename_i known
    exact .of_outcomes (fun _ => h) fun _ => .of_outcomes (fun _ => h) fun _ =>
      h.appendHold (x := ⟨a.1, (holdKey p a.2).1, (holdKey p a.2).2, 0, some p, s.clock.stamp, a.2⟩) known

namespace State.Waits

variable {s : State} {id : Id}

/-- A lot that was held goes on if its last hold has been lifted (R142, R146). -/
theorem lifted (h : s.Waits (some id)) (src : Option Port) :
    (if s.lotUnheld id = true then s.becomeUnheld src id else s).Waits none :=
  .of_ite (fun unheld => h.becomeUnheld unheld src) fun held => h.settled fun l known => by
    rw [State.lotUnheld_eq known] at held
    exact Lot.not_dispatchable_of_held (by simpa using held)

/-- A lot with a hold or with its overflow flag set is set aside. -/
theorem apart_held (h : s.Waits none) (held : s.lotUnheld id = false) : s.Waits (some id) :=
  h.apart fun _ known => Lot.not_dispatchable_of_held (State.lotUnheld_eq known ▸ held)

/-- A lot that is SAMPLING is disposed of (R147). -/
theorem dispose (h : s.Waits (some id)) {d : Disposition}
    (sampling : d ≠ .none → ∀ l, s.lot id = some l → l.state = .sampling) : (s.dispose id d).Waits (some id) := by
  have past (acts : d ≠ .none) (l : Lot) (known : s.lot id = some l) : l.Past := by
    simp [Lot.Past, sampling acts l known]
  cases d with
  | none => exact h
  | accept =>
    exact (h.onLot id (fun l => { l with state := .accepted }) fun l known =>
      .of_past (past (by simp) l known) (by simp [Lot.Past])).nlot id .accepted
  | resample =>
    exact (h.onLot id (fun l => { l with state := .tested, rejects := 0 }) fun l known =>
      .of_past (past (by simp) l known) (by simp [Lot.Past])).nlot id .resample

end State.Waits

theorem hclrOwner_queue (p : Port) : KeepsQueue readHclr (hclrOwner p) := by
  intro _ a s reads agreed h
  unfold hclrOwner
  split
  · exact h
  · rename_i l known
    refine .of_outcomes (fun _ => h) fun _ => .of_outcomes (fun _ => h) fun has =>
      .of_outcomes (fun _ => h) fun fits => ?_
    have apart := h.apart_held (agreed.holds.held (by simpa using has))
    have removed : (s.removeHold a.lot a.kind a.arg).Waits (some a.lot) :=
      (apart.of_same (t := { s with holds := s.holds.filter fun r => !r.is a.lot a.kind a.arg })).relink
        fun _ => ⟨rfl, rfl, .inl rfl⟩
    refine ((removed.nlot a.lot .holdCleared (some (a.kind, a.arg))).dispose fun acts m at_id => ?_).lifted _
    have qa : a.kind = .qa := (readHclr_disposition reads).resolve_left acts
    have sampling : l.state = .sampling := by
      by_contra other
      exact fits ⟨qa, by simp [dispositionFits, other, acts]⟩
    have found := State.onLot_lot_same { s with holds := s.holds.filter fun r => !r.is a.lot a.kind a.arg }
      (fun l => { l with holdCount := l.holdCount - 1 }) known fun _ => rfl
    have at_id : (s.removeHold a.lot a.kind a.arg).lot a.lot = some m := State.nlot_lot .. ▸ at_id
    obtain rfl := Option.some.inj (found.symm.trans at_id)
    exact sampling

theorem hovcOwner_queue {read : List Byte → Checked Id} : KeepsQueue read hovcOwner := by
  intro _ id s _ _ h
  unfold hovcOwner
  split
  · exact h
  · rename_i l known
    refine .of_outcomes (fun _ => h) fun overflow => ?_
    have apart := h.apart_held (id := id) (by simp_all [State.lotUnheld_eq known, Lot.unheld])
    have cleared := apart.relink (f := fun l => { l with overflow := false }) fun _ => ⟨rfl, rfl, .inl rfl⟩
    exact (cleared.nlot id .overflowCleared).lifted _

/-! ## The floor host's cell requests (chapters 3 and 5) -/

theorem cdckConfigured_queue {read : List Byte → Checked (CellNo × Id × Id)} : KeepsQueue read cdckConfigured := by
  intro f a s _ _ h
  refine .of_outcomes (fun _ => h) fun _ => .of_outcomes (fun _ => h) fun _ => ?_
  split
  · exact h
  · exact (((h.onEquip _ _).onEquip _ _).onCell a.1 fun x =>
      { x with handler := some a.2.1, tester := some a.2.2, mode := .maintenance }).enterOffer _

theorem cundOwner_queue {read : List Byte → Checked CellNo} : KeepsQueue read cundOwner := by
  intro f c s _ _ h
  refine .of_outcomes (fun _ => h) fun _ => ?_
  cases state : (s.cell c).state with
  | idle | paused | lost | fault => exact h.undock _ c
  | vacant | offer | confirm | preparing | running | stopping | closing => exact h

theorem crdkOwner_queue {read : List Byte → Checked CellNo} : KeepsQueue read crdkOwner := by
  intro f c s _ _ h
  refine .of_outcomes (fun _ => h) fun _ => ?_
  split
  · exact h.enterOffer c
  · exact h.enterOffer c
  · exact h

theorem cmodOwner_queue {read : List Byte → Checked (CellNo × Mode)} : KeepsQueue read cmodOwner := fun _ a _ _ _ h =>
  .of_outcomes (fun _ => h) fun _ => .of_outcomes (fun _ => h) fun _ => .of_outcomes (fun _ => h) fun _ =>
    (h.moveCell a.1 fun x => { x with mode := a.2 }).serve _ _

theorem csenOwner_queue {read : List Byte → Checked (CellNo × Fin 8)} : KeepsQueue read csenOwner := fun _ a _ _ _ h =>
  .of_outcomes (fun _ => h) fun _ => .of_outcomes (fun _ => h) fun _ => .of_outcomes (fun _ => h) fun _ =>
    (h.onCell a.1 fun x => { x with active := SiteSet.add x.active a.2, failed := none }).serve _ _

theorem cunbOwner_queue {read : List Byte → Checked CellNo} : KeepsQueue read cunbOwner := by
  intro f c s _ _ h
  refine .of_outcomes (fun _ => h) fun _ => ?_
  have unbound (id : Id) (names : (s.cell c).bound = some id) :=
    (h.onCell c fun x => { x with preparation := none }).unbind (f := fun x => { x with state := .idle })
      ((State.onCell_bound rfl c).trans names) rfl (some hostPort)
  dsimp only
  split
  · exact unbound _ ‹_›
  · exact unbound _ ‹_›
  · exact h

/-! ## Equipment (chapters 2, 3 and 6) -/

theorem eannOwner_queue {read : List Byte → Checked Ability} (p : Port) : KeepsQueue read (eannOwner p) := by
  intro f ability s _ _ h
  have set (i : Position) (e : Option Entry) : (s.setEntry i e).Waits none := h.of_same
  unfold eannOwner
  split
  · refine .of_outcomes (fun _ => h) fun _ => ?_
    dsimp only
    split
    · exact (set _ _).disturb _ _ _
    · exact set _ _
  · unfold State.learn
    split
    · exact .of_outcomes (fun _ => set _ _) fun _ => h
    · exact h

theorem eablOwner_queue {read : List Byte → Checked (CellNo × Ability)} : KeepsQueue read eablOwner := by
  intro f a s _ _ h
  have replaced : (s.setAbility f.source a.2).Waits none := h.onEquip _ _
  refine .of_outcomes (fun _ => h) fun _ => .of_outcomes (fun _ => h) fun _ => ?_
  split
  · have marked := replaced.onCell a.1 fun x =>
      { x with negotiation := some (Negotiation.report ‹_› (decide ((s.cell a.1).handler = some f.source))) }
    exact Waits.of_ite (fun _ => marked.reported _) fun _ => marked
  · exact replaced.enterOffer _ _ _
  · exact h

theorem ecnfOwner_queue {read : List Byte → Checked (CellNo × Capability)} (p : Port) :
    KeepsQueue read (ecnfOwner p) := by
  intro f a s _ _ h
  refine .of_outcomes (fun _ => h) fun _ => ?_
  dsimp only
  split
  · refine .of_outcomes (fun _ => h.enterFault _ _) fun _ => ?_
    have marked := h.onCell a.1 fun x =>
      { x with negotiation := some (Negotiation.accept ‹_› (decide ((s.cell a.1).handler = some f.source))) }
    exact Waits.of_ite (fun _ => marked.formed _ _ _) fun _ => marked
  · exact h

namespace State.Waits

variable {s : State}

/-- A program reported loaded, or a load that has failed, ends the cell's load request (R95, R96). -/
theorem programLoaded (h : s.Waits none) (src : Option Port) (c : CellNo) (id program : Id) :
    (s.programLoaded src c id program).Waits none := by
  have loaded := (h.onEquip id fun e =>
    { e with ability := match e.ability with
      | .tester a => .tester { a with program := program }
      | .handler a => .handler a }).onCell c fun x => { x with loadRequest := none }
  have done := loaded.onCell c fun x =>
    { x with preparation := x.preparation.map fun p => { p with program := .done, loadDeadline := none } }
  exact .of_ite (fun _ => (done.testPreparation src c).serve src c) fun _ => loaded

theorem programRefused (h : s.Waits none) (src : Option Port) (c : CellNo) : (s.programRefused src c).Waits none :=
  have ended := h.onCell c fun x => { x with loadRequest := none }
  .of_ite (fun _ => ended.loadFailed src c) fun _ => ended

theorem temperatureReached (h : s.Waits none) (src : Option Port) (c : CellNo) :
    (s.temperatureReached src c).Waits none := by
  have reached := h.onCell c fun x => { x with thermal := { x.thermal with reached := true, soak := 0 } }
  unfold State.temperatureReached
  dsimp only
  split
  · rename_i p _ _
    have settled (thermal : ThermalPart) := reached.onCell c fun x =>
      { x with preparation := some { p with settleDeadline := none, thermal := thermal } }
    exact .of_ite (fun _ => ((settled _).testPreparation src c).serve src c) fun _ => reached
  · exact reached

end State.Waits

theorem epldOwner_queue {read : List Byte → Checked (CellNo × Id)} (p : Port) : KeepsQueue read (epldOwner p) := by
  intro f a s _ _ h
  unfold epldOwner
  dsimp only
  split
  · exact h
  · exact h
  · exact Waits.of_ite (fun _ => h.programLoaded _ _ _ _) fun _ => h.programRefused _ _

theorem eldfOwner_queue {read : List Byte → Checked (CellNo × Id)} (p : Port) : KeepsQueue read (eldfOwner p) := by
  intro f a s _ _ h
  unfold eldfOwner
  dsimp only
  split
  · exact h
  · exact .of_outcomes (fun _ => h.programRefused _ _) fun _ => h

theorem etmpOwner_queue {read : List Byte → Checked (CellNo × Int)} (p : Port) : KeepsQueue read (etmpOwner p) := by
  intro f a s _ _ h
  unfold etmpOwner
  dsimp only
  split
  · exact h
  · exact .of_outcomes (fun _ => h) fun _ => Waits.of_ite (fun _ => h) fun _ => h.temperatureReached _ _

/-! ## ERND and EBIN (chapters 6 and 7) -/

theorem erndOwner_queue {read : List Byte → Checked ErndFields} (p : Port) : KeepsQueue read (erndOwner p) := by
  intro f a s _ _ h
  unfold erndOwner
  split
  · exact h
  · exact h
  · exact .of_outcomes (fun _ => h) fun _ => .of_outcomes (fun _ => h) fun _ => .of_outcomes (fun _ => h) fun _ =>
      h.evaluateEnd _ _ _ _ _

/-- A replacement of the lots of one id, as a change that is made of those alone. -/
theorem State.onLot_replace (s : State) (id : Id) (m : Lot) :
    (s.onLot id fun _ => m) = s.onLot id fun x => if x.id = id then m else x := by
  unfold State.onLot
  congr 1
  refine List.map_congr_left fun x _ => ?_
  by_cases here : x.id = id <;> simp [here]

namespace State.Waits

variable {s : State}

/-- The lot found is replaced by one with its links and holds. -/
theorem replaceLot (h : s.Waits none) {l m : Lot} (known : s.lot l.id = some l) (stays : l.Stays m) :
    (s.onLot l.id fun _ => m).Waits none := by
  rw [State.onLot_replace]
  refine h.onLot l.id _ (fun x known' => ?_) fun x => ?_
  · rw [← Option.some.inj (known.symm.trans known'), if_pos rfl]
    exact stays
  · split
    · rw [stays.id, ‹x.id = l.id›]
    · rfl

theorem runningChecks (h : s.Waits none) (src : Option Port) (id : Id) : (s.runningChecks src id).Waits none := by
  unfold State.runningChecks
  split
  · exact of_ite (fun _ => h.checkRatios _ _) fun _ => h
  · exact h

theorem checkSites (h : s.Waits none) (src : Option Port) (c : CellNo) (id : Id) :
    (s.checkSites src c id).Waits none := by
  unfold State.checkSites
  split
  · refine of_ite (fun _ => ?_) fun _ => h
    split
    · rename_i site top _
      have told := (h.onCell c fun x => { x with active := SiteSet.drop x.active site }).notifyMembers c
      exact of_ite (fun _ => (told _).placeHold ..) fun _ => told _
    · exact h
  · exact h

end State.Waits

theorem ebinOwner_queue {read : List Byte → Checked EbinFields} (p : Port) : KeepsQueue read (ebinOwner p) := by
  intro f a s _ _ h
  unfold ebinOwner
  split
  · exact h
  · rename_i l known
    split
    · exact h
    · rename_i c _
      refine .of_outcomes (fun _ => h) fun _ => ?_
      split
      · exact h
      · rename_i x _
        refine .of_outcomes (fun _ => h) fun _ => ?_
        split
        · exact h
        · let t := Tally.entries (s.planOf l) ⟨l, x, 0, 0⟩ a.entries
          have counted := h.replaceLot (State.lot_own known) (Tally.entries_keeps (s.planOf l) a.entries ⟨l, x, 0, 0⟩).lot
          have tallied := counted.onCell c fun y => { y with run := some t.run }
          have checked := Waits.of_ite (p := x.excess < t.run.excess)
            (fun _ => tallied.placeHold (some p) l.id .reconcile excessArg t.run.excess) fun _ => tallied
          exact ((checked.runningChecks _ _).checkSites _ _ _).testClose _ c

/-! ## QRES, RLSE, STAK and SARM (chapter 9) -/

/-- A lot that has left test moves on there. -/
theorem State.Waits.onPast {s : State} (h : s.Waits none) {id : Id} {l : Lot} (known : s.lot id = some l) (past : l.Past)
    (f : Lot → Lot) (past' : (f l).Past) (keep : ∀ l, (f l).id = l.id := by exact fun _ => rfl)
    (cell : (f l).cell = l.cell := by rfl) (holdCount : (f l).holdCount = l.holdCount := by rfl)
    (overflow : (f l).overflow = l.overflow := by rfl) : (s.onLot id f).Waits none :=
  h.onLot id f (fun _ known' => Option.some.inj (known.symm.trans known') ▸
    .of_past past past' (keep l) cell holdCount overflow) keep

theorem qresOwner_queue {read : List Byte → Checked (Id × Nat × Nat)} : KeepsQueue read qresOwner := by
  intro f a s _ _ h
  unfold qresOwner
  dsimp only
  split
  · exact h
  · rename_i l known
    refine .of_outcomes (fun _ => h) fun refused => .of_outcomes (fun _ => h) fun _ => .of_outcomes (fun _ => h) fun _ => ?_
    have sampling : l.state = .sampling := not_not.mp fun other => refused (.inl other)
    have past : l.Past := by simp [Lot.Past, sampling]
    have known := State.lot_own known
    have judged := h.onPast known past (fun l => { l with rejects := a.2.2, samplePending := false }) past
    have known' := s.onLot_lot_same (fun l => { l with rejects := a.2.2, samplePending := false }) known fun _ => rfl
    unfold State.judgeSample
    dsimp only
    split
    · exact (judged.onPast known' past (fun l => { l with state := .accepted }) (by simp [Lot.Past])).nlot l.id .accepted
    · exact judged.placeHold ..

theorem rlseOwner_queue {read : List Byte → Checked Id} : KeepsQueue read rlseOwner := by
  intro f id s _ _ h
  unfold rlseOwner
  split
  · exact h
  · rename_i l known
    refine .of_outcomes (fun _ => h) fun accepted => .of_outcomes (fun _ => h) fun _ => .of_outcomes (fun _ => h) fun _ => ?_
    have queued : ({ s with shipments := s.shipments ++ [s.shipmentOf l] } : State).Waits none := h.of_same
    have released := (queued.onPast known (by simp [Lot.Past, not_not.mp accepted]) (fun l =>
      { l with state := .released }) (by simp [Lot.Past])).nlot id .released
    exact Waits.of_ite (fun _ => released.attentionTest) fun _ => released

theorem stakOwner_queue {read : List Byte → Checked Unit} : KeepsQueue read stakOwner := by
  intro f _ s _ _ h
  unfold stakOwner
  split
  · rename_i x _
    have dropped : (s.dropShipment x.lot).Waits none := h.of_same
    show ((s.dropShipment x.lot).retire x.lot).Waits none
    unfold State.retire
    split
    · exact dropped.freeLot _ _
    · exact dropped
  · exact h

theorem sarmOwner_queue {read : List Byte → Checked Unit} : KeepsQueue read sarmOwner := fun _ _ s _ _ h =>
  (h.of_same (t := { s with armed := true })).attentionTest

/-! ## Clock and configuration (chapters 10 and 11) -/

theorem clksOwner_queue {read : List Byte → Checked (Option Nat)} : KeepsQueue read clksOwner := by
  intro f a s _ _ h
  cases a with
  | none => exact h
  | some m =>
    have loaded : ({ s with clock := { s.clock with minute := m, seconds := 0 } } : State).Waits none := h.of_same
    exact .of_outcomes (fun _ => h) fun _ => loaded.evaluateGates _

theorem wprdOwner_queue {read : List Byte → Checked (Fin 32 × Product)} : KeepsQueue read wprdOwner :=
  fun _ _ _ _ _ h => .of_outcomes (fun _ => h) fun _ => .of_outcomes (fun _ => h) fun _ => h.of_same

theorem wbplOwner_queue {read : List Byte → Checked (Fin 8 × BinPlan)} : KeepsQueue read wbplOwner := by
  intro f a s _ _ h
  refine .of_outcomes (fun _ => h) fun _ => ?_
  dsimp only
  split
  · exact h
  · exact h.of_same

theorem wparOwner_queue {read : List Byte → Checked Parameters} : KeepsQueue read wparOwner := by
  intro f new s _ _ h
  have replaced : ({ s with tables := { s.tables with parameters := new } } : State).Waits none := h.of_same
  have recomputed {c : Prop} [Decidable c] := Waits.of_ite (p := c) (fun _ => replaced) fun _ => replaced.recompute
  exact .of_ite (fun _ => recomputed) fun _ => recomputed.periodChanged _

theorem wwinOwner_queue {read : List Byte → Checked (Fin 4 × Window)} : KeepsQueue read wwinOwner := by
  intro f a s _ _ h
  have replaced : ({ s with tables := { s.tables with windows := s.tables.windows.set a.1 a.2 } } : State).Waits none :=
    h.of_same
  exact .of_outcomes (fun _ => h) fun _ => .of_outcomes (fun _ => h) fun _ => replaced.evaluateGates _

theorem crdyOwner_queue {read : List Byte → Checked Unit} : KeepsQueue read crdyOwner := by
  intro f _ s _ _ h
  unfold crdyOwner
  split
  · exact h
  · exact h.of_same

theorem csavOwner_queue {read : List Byte → Checked Unit} : KeepsQueue read csavOwner := fun _ _ _ _ _ h =>
  .of_outcomes (fun _ => h.of_same) fun _ => h

/-- An owner that changes nothing keeps the queue. -/
theorem KeepsQueue.of_query {α : Type} {read : List Byte → Checked α} {owner : Owner α}
    (query : ∀ f a s, (owner f a s).1 = s) : KeepsQueue read owner := fun f a s _ _ h => by
  rw [query]
  exact h

theorem pstaOwner_queue {read : List Byte → Checked Unit} (p : Port) : KeepsQueue read (pstaOwner p) :=
  fun _ _ _ _ _ h => h.of_same

/-! ## The examination of a request (R8) -/

namespace State.Waits

variable {s : State} {α : Type} {read : List Byte → Checked α} {owner : Owner α}

theorem answer (h : s.Waits none) (p : Port) (r : Option Req) (reply : Reply) : (s.answer p r reply).Waits none :=
  h.of_same

theorem checkFields (h : s.Waits none) (agreed : s.Agreed none) (keeps : KeepsQueue read owner) (p : Port) (r : Req)
    (f : Frame) : (s.checkFields p r read owner f).Waits none :=
  State.checkFields_keeps (State.Waits none) of_onlyPorts h fun a reads => keeps f a s reads agreed h

theorem checkKnown (h : s.Waits none) (agreed : s.Agreed none) (keeps : KeepsQueue read owner) (p : Port) (r : Req)
    (f : Frame) (i : Position) (e : Entry) : (s.checkKnown p r read owner f i e).Waits none := by
  have refreshed : (s.setEntry i (some (e.refreshed p))).Waits none := h.of_same
  unfold State.checkKnown
  dsimp only
  split
  · exact (refreshed.reportReturn ..).answer ..
  · exact ((keeps _ _ _ ‹_› (agreed.setEntry i _) refreshed).reportReturn ..).answer ..

theorem checkSender (h : s.Waits none) (agreed : s.Agreed none) (keeps : KeepsQueue read owner) (p : Port) (r : Req)
    (f : Frame) : (s.checkSender p r read owner f).Waits none := by
  refine of_ite (fun _ => h.answer ..) fun _ => ?_
  split
  · exact of_ite (fun _ => h.checkFields agreed keeps p r f) fun _ => h.answer ..
  · exact of_ite (fun _ => h.answer ..) fun _ =>
      of_ite (fun _ => h.checkFields agreed keeps p r f) fun _ => h.checkKnown agreed keeps p r f _ _

theorem examine (h : s.Waits none) (agreed : s.Agreed none) (keeps : KeepsQueue read owner) (p : Port) (r : Req)
    (v : Service) : (s.examine p r read owner v).Waits none :=
  of_ite (fun _ => h.of_same) fun _ => of_ite (fun _ => h.answer ..) fun _ => of_ite
    (fun _ => of_ite (fun _ => h.answer ..) fun _ => h.checkFields agreed keeps p r _)
    fun _ => h.checkSender agreed keeps p r _

theorem request (h : s.Waits none) (agreed : s.Agreed none) (keeps : KeepsQueue read owner) (p : Port) (r : Req)
    (mine : List Byte → Bool) : (s.request p r mine read owner).Waits none := by
  unfold State.request
  dsimp only
  split
  · exact of_ite (fun _ => h.settle.examine agreed.settle keeps p r _) fun _ => h.settle
  · exact h.settle

/-! ## The events of the links and of the part -/

theorem onPort (h : s.Waits none) (p : Port) (f : PortUnit → PortUnit) : (s.onPort p f).Waits none := h.of_same

theorem resumeWaiting (h : s.Waits none) (agreed : s.Agreed none) (f : Frame) : (s.resumeWaiting f).Waits none := by
  unfold State.resumeWaiting
  split
  · exact h.checkFields agreed lentConfigured_queue ..
  · exact h.checkFields agreed cdckConfigured_queue ..
  · exact h

theorem endReattempt (h : s.Waits none) (agreed : s.Agreed none) (reply : StoreReply) (f : Frame) :
    (s.endReattempt reply f).Waits none :=
  of_ite (fun _ => (h.of_same.periodChanged _).resumeWaiting (agreed.of_same.periodChanged _) f)
    fun _ => h.of_same.answer ..

theorem endWrite (h : s.Waits none) (result : ReadBack) : (s.endWrite result).Waits none := by
  have written (store : Store) : ({ s with storeJob := none, store := store } : State).Waits none := h.of_same
  cases result <;> exact (written _).answer ..

end State.Waits

/-! ## Every command and every step -/

/-- A request's row keeps the queue. -/
theorem exec_request_keepsQueue {i : Instr} {p : Port} {r : Req} {mine : List Byte → Bool} {s t : State}
    (row : requestOf i = some (p, r, mine)) (agreed : s.Agreed none) (h : s.Waits none) (next : exec i s = .next t) :
    t.Waits none := by
  have kept {α : Type} {read : List Byte → Checked α} {owner : Owner α} (keeps : KeepsQueue read owner)
      (runs : exec i s = .next (s.request p r mine read owner)) : t.Waits none := by
    rw [runs] at next
    injection next with e
    exact e ▸ h.request agreed keeps p r mine
  cases i with
  | lent _ => cases row; exact kept (afterReattempt_queue lentConfigured_queue) rfl
  | lrem _ => cases row; exact kept lremOwner_queue rfl
  | lpri _ => cases row; exact kept lpriOwner_queue rfl
  | lsht _ => cases row; exact kept lshtOwner_queue rfl
  | qlotSummary _ => cases row; exact kept (.of_query qlotSummaryOwner_state) rfl
  | qlotCounts _ => cases row; exact kept (.of_query qlotCountsOwner_state) rfl
  | qlotHolds _ => cases row; exact kept (.of_query qlotHoldsOwner_state) rfl
  | qlotList _ => cases row; exact kept (owner := qlotListOwner) (.of_query fun _ _ _ => rfl) rfl
  | hold _ => cases row; exact kept (holdOwner_queue _) rfl
  | hclr _ => cases row; exact kept (hclrOwner_queue _) rfl
  | hovc _ => cases row; exact kept hovcOwner_queue rfl
  | cdck _ => cases row; exact kept (afterReattempt_queue cdckConfigured_queue) rfl
  | cund _ => cases row; exact kept cundOwner_queue rfl
  | crdk _ => cases row; exact kept crdkOwner_queue rfl
  | cmod _ => cases row; exact kept cmodOwner_queue rfl
  | csen _ => cases row; exact kept csenOwner_queue rfl
  | qcel _ => cases row; exact kept (owner := qcelOwner) (.of_query fun _ _ _ => rfl) rfl
  | cunb _ => cases row; exact kept cunbOwner_queue rfl
  | qeqp _ => cases row; exact kept (.of_query qeqpOwner_state) rfl
  | qeqpList _ => cases row; exact kept (owner := qeqpListOwner) (.of_query fun _ _ _ => rfl) rfl
  | stak _ => cases row; exact kept stakOwner_queue rfl
  | sarm _ => cases row; exact kept sarmOwner_queue rfl
  | qres _ => cases row; exact kept qresOwner_queue rfl
  | rlse _ => cases row; exact kept rlseOwner_queue rfl
  | clks _ => cases row; exact kept clksOwner_queue rfl
  | wprd _ => cases row; exact kept wprdOwner_queue rfl
  | wbpl _ => cases row; exact kept wbplOwner_queue rfl
  | wpar _ => cases row; exact kept wparOwner_queue rfl
  | wwin _ => cases row; exact kept wwinOwner_queue rfl
  | crdy _ => cases row; exact kept crdyOwner_queue rfl
  | csav _ => cases row; exact kept csavOwner_queue rfl
  | frst _ => cases row; exact kept (owner := frstOwner) (.of_query fun _ _ _ => rfl) rfl
  | eann _ => cases row; exact kept (eannOwner_queue _) rfl
  | eabl _ => cases row; exact kept eablOwner_queue rfl
  | ecnf _ => cases row; exact kept (ecnfOwner_queue _) rfl
  | epld _ => cases row; exact kept (epldOwner_queue _) rfl
  | eldf _ => cases row; exact kept (eldfOwner_queue _) rfl
  | etmp _ => cases row; exact kept (etmpOwner_queue _) rfl
  | ernd _ => cases row; exact kept (erndOwner_queue _) rfl
  | ebin _ => cases row; exact kept (ebinOwner_queue _) rfl
  | sens _ => cases row; exact kept (owner := sensOwner _) (.of_query fun _ _ _ => rfl) rfl
  | psta _ => cases row; exact kept (pstaOwner_queue _) rfl
  | _ => cases row

/-- Every command keeps the queue. -/
theorem exec_keepsQueue {i : Instr} {s t : State} (agreed : s.Agreed none) (h : s.Waits none)
    (next : exec i s = .next t) : t.Waits none := by
  have settled := h.settle
  cases row : requestOf i with
  | some request => exact exec_request_keepsQueue row agreed h next
  | none =>
    cases i with
    | powerOnReset cut => injection next with e; exact e ▸ .of_empty rfl rfl
    | startUpLoad reply =>
      injection next with e
      exact e ▸ .of_ite (fun _ => settled.endLoad reply) fun _ => settled
    | storeLoadReattempt reply =>
      injection next with e
      subst e
      split
      · exact settled.endReattempt agreed.settle reply _
      · exact settled
    | storeWrite result => injection next with e; exact e ▸ .of_ite (fun _ => settled.endWrite result) fun _ => settled
    | frameComplete p _ | lengthBelow6 p _ | gapAbort p | receivedByte p _ =>
      injection next with e
      exact e ▸ settled.onPort p _
    | frameSent p =>
      injection next with e
      exact e ▸ .of_ite (fun _ => (settled.onPort p PortUnit.sent).of_same) fun _ => settled.onPort p _
    | secondsTick => injection next with e; exact e ▸ settled.second
    | floorReset | minuteTick | entryStale _ | soakEnd _ | negotiationDeadlineExpiry _ | loadDeadlineExpiry _
      | settleDeadlineExpiry _ | closeDeadlineExpiry _ =>
      injection next with e
      exact e ▸ h.takeListed _
    | entryRemoval _ => injection next with e; exact e ▸ .of_ite (fun _ => h) fun _ => h.takeListed _
    | unknownCode p =>
      injection next with e
      subst e
      split
      · exact .of_ite (fun _ => .of_ite (fun _ => settled.onPort p _) fun _ => settled.answer p _ _) fun _ => settled
      · exact settled
    | _ => cases row

theorem State.Sound.waits {s : State} (h : s.Sound) : s.Waits none where
  once := h.queue.once
  exact id := by
    rw [State.places, List.mem_map, h.queue.exact]
    refine ⟨?_, ?_⟩
    · rintro ⟨l, mem, rfl, waiting, unheld⟩
      exact ⟨by simp, l, State.lot_of_mem h.lots.ids mem, waiting, unheld⟩
    · rintro ⟨-, l, known, waiting, unheld⟩
      exact ⟨l, State.lot_mem known, s.lot_id known, waiting, unheld⟩
  named c id l names known := by
    obtain ⟨m, known', cell, bound, -⟩ := h.agreed.linked.boundLot names
    obtain rfl := Option.some.inj (known.symm.trans known')
    exact ⟨bound, cell⟩

/-- The lots of the table are those found, once no id stands there twice. -/
theorem State.Waits.queue {s : State} (h : s.Waits none) (lots : s.LotsSound) : s.QueueSound where
  once := h.once
  exact id := by
    rw [← List.mem_map, show s.queue.map Waiting.lot = s.places from rfl, h.exact]
    refine ⟨?_, ?_⟩
    · rintro ⟨-, l, known, waiting, unheld⟩
      exact ⟨l, State.lot_mem known, s.lot_id known, waiting, unheld⟩
    · rintro ⟨l, mem, rfl, waiting, unheld⟩
      exact ⟨by simp, l, State.lot_of_mem lots.ids mem, waiting, unheld⟩

/-- Settles O56: a lot is set aside from the queue whenever it stops being, or is about to become, a dispatchable one,
and every update keeps the rest of the queue on the other dispatchable lots. -/
theorem dispatchQueueKept : Obligations.DispatchQueueKept := by
  intro s t sound next
  have lots := (step_keepsLots next).lots sound.lots
  unfold step at next
  split at next
  · injection next with e
    exact e ▸ sound.queue
  · rename_i i rest _
    have front : ({ s with pending := rest } : State).Waits none := sound.waits.of_same
    exact (exec_keepsQueue sound.agreed.of_same front next).queue lots

end Sys2Proof.Machine
end

section
/-! Minute ticks, gates and queue order (R75 to R77, R84, R163, R171 to R179). -/

namespace Sys2Proof.Machine

-- one theorem at a time: many at once, each with a thread of its own, can exceed the memory limit
set_option Elab.async false

/-! ## Queue order (R75) -/

section order
variable {α : Type} {ahead : α → α → Bool} (asymm : ∀ a b, ahead a b = true → ahead b a = false)
  (trans : ∀ a b c, ahead b a = false → ahead c b = false → ahead c a = false)
include asymm trans

theorem insertBy_ordered (x : α) {xs : List α} (ordered : xs.Pairwise fun a b => ahead b a = false) :
    (insertBy ahead x xs).Pairwise fun a b => ahead b a = false := by
  induction ordered with
  | nil => exact List.pairwise_singleton _ x
  | @cons y ys first ordered ih =>
    unfold insertBy
    split
    next before =>
      refine .cons (fun z mem => ?_) (.cons first ordered)
      obtain rfl | mem := List.mem_cons.mp mem
      · exact asymm _ _ before
      · exact trans _ _ _ (asymm _ _ before) (first z mem)
    next behind =>
      refine .cons (fun z mem => ?_) ih
      obtain rfl | mem := List.mem_cons.mp ((insertBy_perm ahead x ys).mem_iff.mp mem)
      · exact Bool.eq_false_iff.mpr behind
      · exact first z mem

omit asymm in
/-- An item is placed behind its equals. -/
theorem filter_insertBy {p : α → Bool} (equal : ∀ a b, p a = true → p b = true → ahead a b = false) (x : α)
    {xs : List α} (ordered : xs.Pairwise fun a b => ahead b a = false) :
    (insertBy ahead x xs).filter p = (xs ++ [x]).filter p := by
  induction ordered with
  | nil => rfl
  | @cons y ys first ordered ih =>
    unfold insertBy
    split
    next before =>
      cases at_x : p x with
      | false =>
        have at_x : ¬p x = true := by simp [at_x]
        rw [List.filter_append, List.filter_cons_of_neg at_x, List.filter_cons_of_neg at_x, List.filter_nil,
          List.append_nil]
      | true =>
        have none_behind (z : α) (mem : z ∈ y :: ys) : p z = false := by
          by_contra at_z
          have at_z : p z = true := by simpa using at_z
          have later : ahead z y = false := by
            obtain rfl | mem := List.mem_cons.mp mem
            · exact equal _ _ at_z at_z
            · exact first z mem
          have := trans _ _ _ later (equal x z at_x at_z)
          rw [before] at this
          cases this
        have empty : (y :: ys).filter p = [] := List.filter_eq_nil_iff.mpr fun z mem => by simp [none_behind z mem]
        rw [List.filter_cons_of_pos at_x, List.filter_append, empty]
        simp [at_x]
    next behind => simp only [List.cons_append, List.filter_cons, ih]

theorem sortBy_ordered (xs : List α) : (sortBy ahead xs).Pairwise fun a b => ahead b a = false := by
  have onto (acc : List α) (ordered : acc.Pairwise fun a b => ahead b a = false) :
      (xs.foldl (fun acc x => insertBy ahead x acc) acc).Pairwise fun a b => ahead b a = false := by
    induction xs generalizing acc with
    | nil => exact ordered
    | cons x xs ih => exact ih _ (insertBy_ordered asymm trans x ordered)
  exact onto [] .nil

/-- Equals keep the order in which they come. -/
theorem filter_sortBy {p : α → Bool} (equal : ∀ a b, p a = true → p b = true → ahead a b = false) (xs : List α) :
    (sortBy ahead xs).filter p = xs.filter p := by
  have onto (acc : List α) (ordered : acc.Pairwise fun a b => ahead b a = false) :
      (xs.foldl (fun acc x => insertBy ahead x acc) acc).filter p = (acc ++ xs).filter p := by
    induction xs generalizing acc with
    | nil => simp
    | cons x xs ih =>
      rw [List.foldl_cons, ih _ (insertBy_ordered asymm trans x ordered), List.filter_append,
        filter_insertBy trans equal x ordered, ← List.filter_append, List.append_assoc]
      rfl
  exact onto [] .nil

end order

theorem State.ahead_eq_false {s : State} {a b : Waiting} : s.ahead b a = false ↔
    b.priority < a.priority ∨ (a.priority = b.priority ∧ s.sequenceOf a ≤ s.sequenceOf b) := by
  simp only [State.ahead, Bool.or_eq_false_iff, Bool.and_eq_false_iff, decide_eq_false_iff_not]
  omega

theorem State.ahead_asymm (s : State) (a b : Waiting) (h : s.ahead a b = true) : s.ahead b a = false := by
  simp only [State.ahead, Bool.or_eq_true, Bool.and_eq_true, decide_eq_true_eq] at h
  rw [State.ahead_eq_false]
  omega

theorem State.ahead_trans (s : State) (a b c : Waiting) (h : s.ahead b a = false) (k : s.ahead c b = false) :
    s.ahead c a = false := by
  rw [State.ahead_eq_false] at *
  omega

theorem State.queueOrder_perm (s : State) : s.queueOrder.Perm s.queue := sortBy_perm s.ahead s.queue

theorem State.mem_queueOrder {s : State} {w : Waiting} : w ∈ s.queueOrder ↔ w ∈ s.queue := s.queueOrder_perm.mem_iff

theorem State.queueOrder_ordered (s : State) : s.queueOrder.Pairwise fun a b => b.priority < a.priority
    ∨ (a.priority = b.priority ∧ s.sequenceOf a ≤ s.sequenceOf b) :=
  (sortBy_ordered s.ahead_asymm s.ahead_trans s.queue).imp State.ahead_eq_false.mp

theorem State.queueOrder_stable (s : State) (k n : Nat) :
    (s.queueOrder.filter fun w => decide (w.priority = k ∧ s.sequenceOf w = n))
      = s.queue.filter fun w => decide (w.priority = k ∧ s.sequenceOf w = n) := by
  refine filter_sortBy s.ahead_asymm s.ahead_trans (fun a b at_a at_b => ?_) s.queue
  have at_a := of_decide_eq_true at_a
  have at_b := of_decide_eq_true at_b
  rw [State.ahead_eq_false]
  omega

/-! ## Effective priority (R76) -/

theorem State.freshPriority_eq {s : State} {w : Waiting} {l : Lot} (known : s.lot w.lot = some l) :
    s.freshPriority w = ⟨w.lot,
      effectivePriority s.tables.parameters.agingStep l.basePriority (s.clock.stamp - l.joinStamp).toNat⟩ := by
  simp [State.freshPriority, known, State.minutesSince]

theorem effectivePriority_still (base waited : Nat) : effectivePriority 0 base waited = base := rfl

theorem effectivePriority_top {step base waited : Nat} (ages : 1 ≤ step) (long : 7 - base ≤ waited / step) :
    effectivePriority step base waited = 7 := by
  simp [effectivePriority, long, Nat.ne_of_gt ages]

theorem effectivePriority_aged {step base waited : Nat} (ages : 1 ≤ step) (short : waited / step < 7 - base) :
    effectivePriority step base waited = base + waited / step := by
  simp [effectivePriority, Nat.not_le.mpr short, Nat.ne_of_gt ages]

/-- Settles O25: places are found by insertion behind every equal, in an order that is total up to equals. -/
theorem queueOrderAndEffectivePriority : Obligations.QueueOrderAndEffectivePriority := by
  refine ⟨fun s => ⟨s.queueOrder_perm, s.queueOrder_ordered, s.queueOrder_stable⟩, fun s w l known => ?_⟩
  rw [State.freshPriority_eq known]
  refine ⟨rfl, fun still => ?_, effectivePriority_top, effectivePriority_aged⟩
  show effectivePriority s.tables.parameters.agingStep _ _ = _
  rw [still, effectivePriority_still]

/-! ## Gates (R84, R163, R175 to R177) -/

section gateAt
variable {ws : List Window} {kind : WindowKind} {m : Nat}

theorem Window.openAt_iff {w : Window} (enabled : w.start ≠ w.stop) : w.openAt m = true ↔
    if w.start < w.stop then w.start ≤ m ∧ m < w.stop else w.start ≤ m ∨ m < w.stop := by
  unfold Window.openAt
  split
  · simp
  · have wraps : w.stop < w.start := by omega
    simp [wraps]

/-- The windows that a gate follows: the enabled ones of its kind (R175). -/
theorem enabled_windows : (ws.filter fun w => w.kind = kind && w.enabled)
    = ws.filter fun w => decide (w.kind = kind ∧ w.start ≠ w.stop) :=
  List.filter_congr fun w _ => by simp [Window.enabled]

theorem gateAt_ungated (none : (ws.filter fun w => decide (w.kind = kind ∧ w.start ≠ w.stop)) = []) :
    gateAt ws kind m = .ungated := by
  unfold gateAt
  rw [enabled_windows, none]
  rfl

theorem gateAt_gated (some : (ws.filter fun w => decide (w.kind = kind ∧ w.start ≠ w.stop)) ≠ []) :
    gateAt ws kind m = if (ws.filter fun w => decide (w.kind = kind ∧ w.start ≠ w.stop)).any fun w => w.openAt m
      then .opened else .closed := by
  unfold gateAt
  rw [enabled_windows]
  exact if_neg (by simpa using some)

end gateAt

section evaluateGates
variable {s : State} {src : Option Port}

/-- The state once both gates are recorded and a change of the DISPATCH gate is delivered. -/
def State.gatesRecorded (s : State) (src : Option Port) : State :=
  ({ s with clock := { s.clock with
      dispatchGate := gateAt s.tables.windows.toList .dispatch s.clock.minute
      releaseGate := gateAt s.tables.windows.toList .release s.clock.minute } } : State).deliverDispatch src
    s.clock.dispatchGate (gateAt s.tables.windows.toList .dispatch s.clock.minute)

theorem State.evaluateGates_eq (s : State) (src : Option Port) : s.evaluateGates src =
    (s.gatesRecorded src).deliverRelease s.clock.releaseGate
      (gateAt s.tables.windows.toList .release s.clock.minute) := rfl

theorem State.deliverDispatch_eq (s : State) (src : Option Port) (was now : GateState) :
    s.deliverDispatch src was now = if was = .closed ∧ now ≠ .closed then
      ((List.finRange 16).filter fun c => decide ((s.cell c).state = .idle)).foldl (fun u c => u.serve src c) s
    else s := by
  simp [State.deliverDispatch, isOpening, State.serveIdle]

theorem State.deliverRelease_opening {was now : GateState} (closed : was = .closed) (opens : now ≠ .closed) :
    s.deliverRelease was now = (s.offerAll .offered).attentionTest := by
  simp [State.deliverRelease, isOpening, closed, opens]

theorem State.deliverRelease_closing {was now : GateState} (opened : was ≠ .closed) (closes : now = .closed) :
    s.deliverRelease was now = s.offerAll .queued := by
  simp [State.deliverRelease, isOpening, isClosing, opened, closes]

theorem State.deliverRelease_other {was now : GateState} (same : was = .closed ↔ now = .closed) :
    s.deliverRelease was now = s := by
  by_cases closed : was = .closed
  · simp [State.deliverRelease, isOpening, isClosing, closed, same.mp closed]
  · simp [State.deliverRelease, isOpening, isClosing, closed, mt same.mpr closed]

end evaluateGates

/-- Settles O20: the windows of a gate, and the changes of the two gates by their kinds. -/
theorem gatesFollowWindowsAndDeliverChanges : Obligations.GatesFollowWindowsAndDeliverChanges := by
  refine ⟨?_, ?_⟩
  · intro ws kind m mine isOpen
    have opens (w : Window) (mem : w ∈ mine) : w.openAt m = true ↔ isOpen w :=
      Window.openAt_iff (of_decide_eq_true (List.mem_filter.mp mem).2).2
    refine ⟨gateAt_ungated, ?_, fun gated closed => ?_⟩
    · rintro ⟨w, mem, opened⟩
      rw [gateAt_gated (List.ne_nil_of_mem mem), if_pos (List.any_eq_true.mpr ⟨w, mem, (opens w mem).mpr opened⟩)]
    · rw [gateAt_gated gated, if_neg]
      rw [List.any_eq_true]
      rintro ⟨w, mem, opened⟩
      exact closed w mem ((opens w mem).mp opened)
  · intro s src d r recorded idle delivered offering
    have at_dispatch : s.gatesRecorded src = delivered := State.deliverDispatch_eq ..
    rw [State.evaluateGates_eq, at_dispatch]
    exact ⟨State.deliverRelease_opening, State.deliverRelease_closing, State.deliverRelease_other⟩

/-! ## The minute tick (R77, R171, R172, R178, R179) -/

theorem State.fireMark_eq {s : State} {m : Nat} {stamp : Stamp} (minute : s.clock.minute = m)
    (at_stamp : s.clock.stamp = stamp) : s.fireMark =
      if s.tables.parameters.mark = some m then s.notify 0 (.nmrk stamp m) else s := by
  subst minute at_stamp
  rfl

/-- Settles O19: the gates' deliveries leave the new minute, the new stamp and the mark. -/
theorem minuteTickAdvancesClock : Obligations.MinuteTickAdvancesClock := by
  intro s listed m stamp advanced evaluated
  have taken : exec .minuteTick s = .next evaluated.fireMark := by
    show Host.Outcome.next (s.takeListed .minute) = _
    rw [State.takeListed, listed]
    rfl
  have carried : advanced.Carries evaluated :=
    .of_ite (fun _ => .refl _) fun _ => (State.Carries.refl _).evaluateGates none
  have minute : evaluated.clock.minute = m :=
    (State.SameTable.of_ite (.refl advanced) ((State.SameTable.refl advanced).evaluateGates none)).minute
  rw [taken, State.fireMark_eq minute carried.stamp, carried.tables]

end Sys2Proof.Machine
end

section
/-! Service, the lot-join offer, bindings and unbindings (R80 to R86, R91 to R94). -/

namespace Sys2Proof.Machine

-- one theorem at a time: many at once, each with a thread of its own, can exceed the memory limit
set_option Elab.async false

/-! ## The queue only loses places (R79) -/

/-- The dispatch queue of `t` is that of `s` but for places that have been left. -/
def State.Sheds (s t : State) : Prop := t.queue.Sublist s.queue

namespace State.Sheds

variable {r s t : State}

theorem refl (s : State) : s.Sheds s := List.Sublist.refl _

theorem of_same (h : r.Sheds s) (queue : t.queue = s.queue := by rfl) : r.Sheds t := by
  unfold State.Sheds
  rw [queue]
  exact h

theorem of_onlyPorts (h : r.Sheds s) (ports : s.OnlyPorts t) : r.Sheds t := by
  rw [ports]
  exact h.of_same

theorem of_ite {p : Prop} [Decidable p] (h : p → r.Sheds s) (k : ¬p → r.Sheds t) : r.Sheds (if p then s else t) := by
  split
  · exact h ‹_›
  · exact k ‹_›

theorem leaveQueue (h : r.Sheds s) (id : Id) : r.Sheds (s.leaveQueue id) := List.Sublist.trans List.filter_sublist h

theorem onLot (h : r.Sheds s) (id : Id) (f : Lot → Lot) : r.Sheds (s.onLot id f) := h

theorem onCell (h : r.Sheds s) (c : CellNo) (f : Cell → Cell) : r.Sheds (s.onCell c f) := h

theorem moveCell (h : r.Sheds s) (c : CellNo) (f : Cell → Cell) : r.Sheds (s.moveCell c f) := h

theorem nlot (h : r.Sheds s) (id : Id) (cause : Cause) (hold : Option (HoldKind × Nat) := none) :
    r.Sheds (s.nlot id cause hold) := h.of_onlyPorts (s.onlyPorts_nlot id cause hold)

theorem firstHold (h : r.Sheds s) (id : Id) : r.Sheds (s.firstHold id) := by
  obtain e | e | ⟨c, e⟩ | e := s.firstHold_cases id <;> rw [e]
  · exact h
  · exact h.leaveQueue id
  · obtain e | ⟨_, -, -, u, ports, e⟩ := s.stopRun_cases c <;> rw [e]
    · exact h
    · exact (h.of_onlyPorts ports).moveCell c _
  · have dropped : r.Sheds ((s.dropShipment id).onLot id fun l => { l with state := .accepted }) := h.of_same
    exact dropped.nlot id .withdrawn

theorem placeHold (h : r.Sheds s) (src : Option Port) (id : Id) (kind : HoldKind) (a d : Nat) :
    r.Sheds (s.placeHold src id kind a d) := by
  obtain e | ⟨-, -, e⟩ | ⟨l, -, -, -, e⟩ := s.placeHold_cases src id kind a d <;> rw [e]
  · exact h
  · have set := (h.onLot id fun l => { l with overflow := true }).nlot id .overflowSet
    obtain e | ⟨_, -, -, e | e⟩ := s.setOverflow_cases id <;> rw [e]
    · exact h
    · exact set
    · exact set.firstHold id
  · have listed : r.Sheds { s with holds := s.holds ++ [⟨id, kind, a, d, src, s.clock.stamp, 0⟩] } := h
    have placed := (listed.onLot id fun l => { l with holdCount := l.holdCount + 1 }).nlot id .holdPlaced
      (some (kind, a))
    exact of_ite (fun _ => placed.firstHold id) fun _ => placed

theorem checkYield (h : r.Sheds s) (src : Option Port) (id : Id) : r.Sheds (s.checkYield src id) := by
  unfold State.checkYield
  split
  · exact h
  · split
    · exact of_ite (fun _ => h.placeHold ..) fun _ => h
    · exact h

theorem checkBin (h : r.Sheds s) (src : Option Port) (id : Id) (b : Fin 16) : r.Sheds (State.checkBin src id s b) := by
  unfold State.checkBin
  split
  · exact h
  · dsimp only
    split
    · exact of_ite (fun _ => h.placeHold ..) fun _ => h
    · exact h

theorem checkRatios (h : r.Sheds s) (src : Option Port) (id : Id) : r.Sheds (s.checkRatios src id) :=
  List.foldlRecOn _ _ (h.checkYield src id) fun _ u b _ => u.checkBin src id b

theorem decideSample (h : r.Sheds s) (id : Id) : r.Sheds (s.decideSample id) := by
  unfold State.decideSample
  split
  · have accepted : r.Sheds (s.acceptUnsampled id) := (h.of_same (t := s.onLot id _)).nlot id .accepted
    have sent (product : Fin 32) (n : Nat) : r.Sheds (s.sendSample id product n) :=
      (h.of_same (t := (s.onLot id _).notify qaPort _)).nlot id .sampling
    exact of_ite (fun _ => of_ite (fun _ => accepted) fun _ => sent _ _) fun _ => h
  · exact h

theorem lotTested (h : r.Sheds s) (src : Option Port) (c : CellNo) (id : Id) : r.Sheds (s.lotTested src c id) :=
  (((((h.onLot id _).nlot id .tested).onCell c _).checkRatios src id).decideSample id).moveCell c _

theorem openRun (h : r.Sheds s) (src : Option Port) (c : CellNo) (l : Lot) : r.Sheds (s.openRun src c l) :=
  of_ite (fun _ => (h.placeHold src l.id .site c.val 0).moveCell c _) fun _ =>
    ((h.onLot l.id _).moveCell c _).of_onlyPorts (State.onlyPorts_notifyMembers _ c _)

theorem goOn (h : r.Sheds s) (src : Option Port) (c : CellNo) : r.Sheds (s.goOn src c) := by
  unfold State.goOn
  split
  · exact h
  · rename_i l _
    have completed := h.onLot l.id fun m => m.completePass (s.product l).maxRetests
    exact of_ite (fun _ => h.openRun src c l) fun _ => of_ite (fun _ => completed.openRun src c _)
      fun _ => completed.lotTested src c _

theorem testPreparation (h : r.Sheds s) (src : Option Port) (c : CellNo) : r.Sheds (s.testPreparation src c) := by
  unfold State.testPreparation
  split
  · have discarded := h.onCell c fun x => { x with preparation := none }
    refine of_ite (fun _ => ?_) fun _ => h
    dsimp only
    split
    · exact of_ite (fun _ => discarded.goOn src c) fun _ => discarded.moveCell c _
    · exact discarded
  · exact h

theorem buildProgram (h : r.Sheds s) (c : CellNo) (p : Product) : r.Sheds (s.buildProgram c p).1 := by
  unfold State.buildProgram
  split
  · exact h
  · exact (h.of_onlyPorts (s.onlyPorts_notifyMember _ _)).onCell c _

theorem buildThermal (h : r.Sheds s) (c : CellNo) (p : Product) : r.Sheds (s.buildThermal c p).1 := by
  unfold State.buildThermal
  dsimp only
  split
  · split
    · split <;> exact h
    · exact h
  · exact (h.of_onlyPorts (s.onlyPorts_notifyMember _ _)).onCell c _

theorem prepare (h : r.Sheds s) (src : Option Port) (c : CellNo) : r.Sheds (s.prepare src c) := by
  unfold State.prepare
  split
  · exact h
  · exact (((h.buildProgram c _).buildThermal c _).moveCell c _).testPreparation src c

/-- A binding leaves in the queue at most the other lots' places. -/
theorem bind_leaves (s : State) (src : Option Port) (id : Id) (c : CellNo) :
    (s.leaveQueue id).Sheds (s.bind src id c) :=
  ((((refl (s.leaveQueue id)).onLot id _).nlot id .bound).onCell c _).prepare src c

theorem bind (h : r.Sheds s) (src : Option Port) (id : Id) (c : CellNo) : r.Sheds (s.bind src id c) :=
  List.Sublist.trans (bind_leaves s src id c) (h.leaveQueue id)

theorem serve (h : r.Sheds s) (src : Option Port) (c : CellNo) : r.Sheds (s.serve src c) :=
  State.serve_keeps r.Sheds (fun _ id _ u => u.bind src id c) h

end State.Sheds

/-- A binding of a lot of the queue makes the queue shorter. -/
theorem State.bind_queue_lt {s : State} {w : Waiting} (queued : w ∈ s.queue) (src : Option Port) (c : CellNo) :
    (s.bind src w.lot c).queue.length < s.queue.length := by
  have left : (s.leaveQueue w.lot).queue.length < s.queue.length :=
    List.length_filter_lt_length_iff_exists.mpr ⟨w, queued, by simp⟩
  exact (State.Sheds.bind_leaves s src w.lot c).length_le.trans_lt left

/-! ## Serving a cell (R82) -/

section serve
variable {s : State} {src : Option Port} {c : CellNo} {id : Id}

theorem State.choice_bind_lt (choice : s.choice c = some id) :
    (s.bind src id c).queue.length < s.queue.length := by
  obtain ⟨w, queued, rfl, -⟩ := State.choice_bindable choice
  exact State.bind_queue_lt queued src c

/-- Repetitions beyond the lots in the queue change nothing. -/
theorem State.serveUpTo_enough {m n : Nat} (enough : s.queue.length ≤ m) (enough' : s.queue.length ≤ n) :
    State.serveUpTo src c m s = State.serveUpTo src c n s := by
  induction m generalizing s n with
  | zero =>
    have nothing : s.choice c = none := by
      refine Option.eq_none_iff_forall_not_mem.mpr fun id choice => ?_
      have := State.choice_bind_lt (src := src) choice
      omega
    cases n <;> simp [State.serveUpTo, nothing]
  | succ m ih =>
    cases choice : s.choice c with
    | none => cases n <;> simp [State.serveUpTo, choice]
    | some id =>
      have shorter := State.choice_bind_lt (src := src) choice
      obtain _ | n := n
      · omega
      · simp only [State.serveUpTo, choice]
        exact ih (by omega) (by omega)

theorem State.serve_of_none (nothing : s.choice c = none) : s.serve src c = s := by
  unfold State.serve
  cases s.queue.length <;> simp [State.serveUpTo, nothing]

/-- A cell that is served binds its choice and is served again (R82, R110). -/
theorem State.serve_of_some (choice : s.choice c = some id) : s.serve src c = (s.bind src id c).serve src c := by
  have shorter := State.choice_bind_lt (src := src) choice
  obtain ⟨n, len⟩ : ∃ n, s.queue.length = n + 1 := Nat.exists_eq_succ_of_ne_zero (by omega)
  have once : s.serve src c = State.serveUpTo src c n (s.bind src id c) := by
    rw [State.serve, len, State.serveUpTo, choice]
  rw [once]
  exact State.serveUpTo_enough (by omega) le_rfl

theorem State.serve_queue_lt (choice : s.choice c = some id) :
    (s.serve src c).queue.length < s.queue.length := by
  rw [State.serve_of_some choice]
  exact ((State.Sheds.refl _).serve src c).length_le.trans_lt (State.choice_bind_lt choice)

end serve

/-! ## What a cell may take, and what it takes (R80 to R82) -/

section choice
variable {s : State} {c : CellNo}

theorem State.eligible_iff {l : Lot} : s.eligible l c = true ↔ ∃ cap, (s.cell c).common = some cap
    ∧ (s.cell c).state = .idle
    ∧ (((s.cell c).mode = .production ∧ l.cls = .production) ∨ ((s.cell c).mode = .engineering ∧ l.cls = .engineering))
    ∧ cap.families.getLsbD (s.product l).family.val = true
    ∧ cap.bandMin ≤ (s.product l).setPoint ∧ (s.product l).setPoint ≤ cap.bandMax
    ∧ ((s.product l).kit = cap.kit ∨ (s.product l).kit = 0)
    ∧ (s.product l).options &&& cap.options = (s.product l).options
    ∧ (s.cell c).failed ≠ some (s.product l).program ∧ (s.cell c).active ≠ 0 := by
  unfold State.eligible State.lotSuits
  cases (s.cell c).common with
  | none => simp
  | some cap =>
    simp only [Bool.and_eq_true, decide_eq_true_eq, suits_iff, and_assoc, Option.some.injEq, exists_eq_left']

theorem State.holdsProgram_iff {w : Waiting} : s.holdsProgram c w = true ↔ ∃ l program, s.lot w.lot = some l
    ∧ s.loadedProgram c = some program ∧ program ≠ 0 ∧ program = (s.product l).program := by
  unfold State.holdsProgram
  cases s.lot w.lot with
  | none => simp
  | some l =>
    cases s.loadedProgram c with
    | none => simp
    | some program => simpa using and_comm.trans (and_congr_right fun same => same ▸ Iff.rfl)

theorem State.choice_eq_none : s.choice c = none ↔ ∀ w ∈ s.queue, ¬s.bindable c w = true := by
  have empty : s.choice c = none ↔ s.queueOrder.filter (s.bindable c) = [] := by
    unfold State.choice
    split <;> simp [*]
  rw [empty, List.filter_eq_nil_iff]
  simp only [State.mem_queueOrder]

/-- The first of an ordered list that passes a test stands before every other that does. -/
theorem find?_before {α : Type} {before : α → α → Prop} {xs : List α} (ordered : xs.Pairwise before) {p : α → Bool}
    {a b : α} (found : xs.find? p = some a) (mem : b ∈ xs) (passes : p b = true) : a = b ∨ before a b := by
  obtain ⟨-, as, bs, rfl, fail⟩ := List.find?_eq_some_iff_append.mp found
  obtain mem | mem := List.mem_append.mp mem
  · exact absurd passes (by simpa using fail b mem)
  · obtain rfl | mem := List.mem_cons.mp mem
    · exact .inl rfl
    · exact .inr ((List.pairwise_cons.mp (List.pairwise_append.mp ordered).2.1).1 b mem)

/-- What a served cell takes: of the bindable lots the one of the highest priority, of those one whose program the tester
holds, and of those the first to enter (R82). -/
theorem State.choice_best {id : Id} (choice : s.choice c = some id) : ∃ w ∈ s.queue, w.lot = id
    ∧ s.bindable c w = true
    ∧ (∀ v ∈ s.queue, s.bindable c v = true → v.priority ≤ w.priority)
    ∧ (∀ v ∈ s.queue, s.bindable c v = true → v.priority = w.priority → s.holdsProgram c v = true →
        s.holdsProgram c w = true)
    ∧ (∀ v ∈ s.queue, s.bindable c v = true → v.priority = w.priority →
        (s.holdsProgram c v = true ↔ s.holdsProgram c w = true) → s.sequenceOf w ≤ s.sequenceOf v) := by
  unfold State.choice at choice
  split at choice
  · cases choice
  rename_i first rest listed
  have ordered := s.queueOrder_ordered.filter (s.bindable c)
  rw [listed] at ordered
  have mem_iff (v : Waiting) : v ∈ first :: rest ↔ v ∈ s.queue ∧ s.bindable c v = true := by
    rw [← listed, List.mem_filter, State.mem_queueOrder]
  have of_first (v : Waiting) (mem : v ∈ first :: rest) :
      v.priority ≤ first.priority ∧ (v.priority = first.priority → s.sequenceOf first ≤ s.sequenceOf v) := by
    obtain rfl | mem := List.mem_cons.mp mem
    · exact ⟨le_rfl, fun _ => le_rfl⟩
    · have := (List.pairwise_cons.mp ordered).1 v mem
      omega
  have in_tier (v : Waiting) (mem : v ∈ s.queue) (bindable : s.bindable c v = true)
      (top : v.priority = first.priority) :
      v ∈ (first :: rest).filter fun w => decide (w.priority = first.priority) :=
    List.mem_filter.mpr ⟨(mem_iff v).mpr ⟨mem, bindable⟩, by simpa using top⟩
  cases pick : ((first :: rest).filter fun w => decide (w.priority = first.priority)).find? (s.holdsProgram c) with
  | none =>
    dsimp only at choice
    rw [pick] at choice
    obtain ⟨queued, bindable⟩ := (mem_iff first).mp List.mem_cons_self
    have unmatched (v : Waiting) (mem : v ∈ s.queue) (bindable : s.bindable c v = true)
        (top : v.priority = first.priority) : ¬s.holdsProgram c v = true :=
      List.find?_eq_none.mp pick v (in_tier v mem bindable top)
    exact ⟨first, queued, Option.some.inj choice, bindable,
      fun v mem b => (of_first v ((mem_iff v).mpr ⟨mem, b⟩)).1,
      fun v mem b top matched => absurd matched (unmatched v mem b top),
      fun v mem b top _ => (of_first v ((mem_iff v).mpr ⟨mem, b⟩)).2 top⟩
  | some w =>
    dsimp only at choice
    rw [pick] at choice
    obtain ⟨mem, top⟩ := List.mem_filter.mp (List.mem_of_find?_eq_some pick)
    have top : w.priority = first.priority := of_decide_eq_true top
    have matched : s.holdsProgram c w = true := List.find?_some pick
    obtain ⟨queued, bindable⟩ := (mem_iff w).mp mem
    refine ⟨w, queued, Option.some.inj choice, bindable, fun v mem b => ?_, fun _ _ _ _ _ => matched,
      fun v mem b same matches_ => ?_⟩
    · rw [top]
      exact (of_first v ((mem_iff v).mpr ⟨mem, b⟩)).1
    · have before := find?_before (ordered.filter _) pick (in_tier v mem b (same.trans top)) (matches_.mpr matched)
      obtain rfl | before := before
      · exact le_rfl
      · omega

end choice

/-! ## The lot-join offer (R83) -/

section offer
variable {s : State} {src : Option Port} {w : Waiting} {c : CellNo}

theorem State.pickCell_none (nowhere : ∀ c, ¬s.bindable c w = true) : s.pickCell w = none := by
  have empty : ((List.finRange 16).filter fun c => s.bindable c w) = [] :=
    List.filter_eq_nil_iff.mpr fun c _ => nowhere c
  simp [State.pickCell, empty]

/-- The cell that the offer picks: the lowest whose tester holds the program, else the lowest (R83). -/
theorem State.pickCell_best (bindable : s.bindable c w = true)
    (best : (s.holdsProgram c w = true ∧ ∀ d, s.bindable d w = true → s.holdsProgram d w = true → c.val ≤ d.val)
      ∨ ((∀ d, s.bindable d w = true → s.holdsProgram d w = false)
        ∧ ∀ d, s.bindable d w = true → c.val ≤ d.val)) : s.pickCell w = some c := by
  have ordered : ((List.finRange 16).filter fun c => s.bindable c w).Pairwise (· < ·) :=
    (List.pairwise_lt_finRange 16).filter _
  have mem_iff (d : CellNo) : d ∈ (List.finRange 16).filter (fun c => s.bindable c w) ↔ s.bindable d w = true := by
    simp
  have least {p : CellNo → Bool} {d : CellNo}
      (found : ((List.finRange 16).filter fun c => s.bindable c w).find? p = some d) (passes : p c = true)
      (low : s.bindable d w = true → p d = true → c.val ≤ d.val) : d = c := by
    have low := low ((mem_iff d).mp (List.mem_of_find?_eq_some found)) (List.find?_some found)
    obtain same | before := find?_before ordered found ((mem_iff c).mpr bindable) passes
    · exact same
    · exact absurd (Fin.lt_def.mp before) (by omega)
  unfold State.pickCell
  dsimp only
  obtain ⟨matched, low⟩ | ⟨unmatched, low⟩ := best
  · obtain ⟨d, found⟩ := Option.isSome_iff_exists.mp 
      (List.find?_isSome (p := fun d => s.holdsProgram d w).mpr ⟨c, (mem_iff c).mpr bindable, matched⟩)
    rw [found, least found matched (low d)]
    rfl
  · have nobody : (((List.finRange 16).filter fun c => s.bindable c w).find? fun c => s.holdsProgram c w) = none :=
      List.find?_eq_none.mpr fun d mem => by simp [unmatched d ((mem_iff d).mp mem)]
    rw [nobody, Option.none_or]
    obtain ⟨d, found⟩ := Option.isSome_iff_exists.mp
      (List.find?_isSome (p := fun _ => true).mpr ⟨c, (mem_iff c).mpr bindable, rfl⟩)
    rw [← least found rfl fun b _ => low d b, ← found]
    cases (List.finRange 16).filter fun c => s.bindable c w <;> rfl

theorem State.mem_queue_of_aheadOf {id : Id} {v : Waiting} (mem : v ∈ s.aheadOf id) : v ∈ s.queue :=
  State.mem_queueOrder.mp ((List.takeWhile_sublist _).subset mem)

/-- A cell to which a lot ahead is bindable takes some lot when it is served. -/
theorem State.choice_of_ahead {id : Id} (ahead : (s.aheadOf id).any (s.bindable c) = true) :
    ∃ k, s.choice c = some k := by
  obtain ⟨v, mem, bindable⟩ := List.any_eq_true.mp ahead
  refine Option.ne_none_iff_exists'.mp fun nothing => ?_
  exact State.choice_eq_none.mp nothing v (State.mem_queue_of_aheadOf mem) bindable

theorem State.offerUpTo_of_empty {id : Id} (none : s.queue.length ≤ 0) (n : Nat) : State.offerUpTo src id n s = s := by
  have none : s.queue = [] := List.length_eq_zero_iff.mp (Nat.le_zero.mp none)
  cases n <;> simp [State.offerUpTo, none]

/-- Repetitions beyond the lots in the queue change nothing. -/
theorem State.offerUpTo_enough {id : Id} {m n : Nat} (enough : s.queue.length ≤ m) (enough' : s.queue.length ≤ n) :
    State.offerUpTo src id m s = State.offerUpTo src id n s := by
  induction m generalizing s n with
  | zero => rw [State.offerUpTo_of_empty enough, State.offerUpTo_of_empty enough]
  | succ m ih =>
    obtain _ | n := n
    · rw [State.offerUpTo_of_empty enough', State.offerUpTo_of_empty enough']
    unfold State.offerUpTo
    split
    · rfl
    · split
      · rename_i c _ ahead
        obtain ⟨k, choice⟩ := State.choice_of_ahead ahead
        have shorter := State.serve_queue_lt (src := src) choice
        exact ih (by omega) (by omega)
      · rfl

variable (found : (s.queue.find? fun v => decide (v.lot = w.lot)) = some w)
include found

/-- The first round of an offer of a lot in the queue. -/
theorem State.offer_eq : s.offer src w.lot = match s.pickCell w with
    | none => s
    | some c =>
      if (s.aheadOf w.lot).any (s.bindable c) then (s.serve src c).offer src w.lot
      else (s.bind src w.lot c).serve src c := by
  have some_place : 0 < s.queue.length := List.length_pos_of_mem (List.mem_of_find?_eq_some found)
  obtain ⟨n, len⟩ : ∃ n, s.queue.length = n + 1 := Nat.exists_eq_succ_of_ne_zero (by omega)
  rw [State.offer, len, State.offerUpTo, found, Option.bind_some]
  cases s.pickCell w with
  | none => rfl
  | some c =>
    dsimp only
    split
    · obtain ⟨k, choice⟩ := State.choice_of_ahead ‹_›
      have shorter := State.serve_queue_lt (src := src) choice
      exact State.offerUpTo_enough (by omega) le_rfl
    · rfl

theorem State.offer_nowhere (nowhere : ∀ c, ¬s.bindable c w = true) : s.offer src w.lot = s := by
  rw [State.offer_eq found, State.pickCell_none nowhere]

theorem State.offer_first (pick : s.pickCell w = some c) (first : ∀ v ∈ s.aheadOf w.lot, s.bindable c v = false) :
    s.offer src w.lot = (s.bind src w.lot c).serve src c := by
  rw [State.offer_eq found, pick]
  exact if_neg (by simpa using first)

theorem State.offer_again (pick : s.pickCell w = some c) (ahead : ∃ v ∈ s.aheadOf w.lot, s.bindable c v = true) :
    s.offer src w.lot = (s.serve src c).offer src w.lot := by
  rw [State.offer_eq found, pick]
  exact if_pos (List.any_eq_true.mpr ahead)

end offer

/-- Settles O26: a cell's choice by the queue's order, and one round of service and of the offer. -/
theorem serviceAndOfferBindByQueueOrder : Obligations.ServiceAndOfferBindByQueueOrder := by
  refine ⟨?_, ?_⟩
  · intro s src c x bindable matching
    have bindable_iff (w : Waiting) : s.bindable c w = true ↔ bindable w := by
      rw [State.bindable_iff]
      refine exists_congr fun l => ?_
      rw [State.eligible_iff]
      simp only [exists_and_left, ← exists_and_right, and_assoc]
      rfl
    have matching_iff (w : Waiting) : s.holdsProgram c w = true ↔ matching w := State.holdsProgram_iff
    refine ⟨fun w => ⟨bindable_iff w, matching_iff w⟩, fun id choice => ?_, ?_, State.serve_of_none,
      fun id => State.serve_of_some, fun busy => State.serve_of_busy busy src⟩
    · simp only [← bindable_iff, ← matching_iff]
      exact State.choice_best choice
    · simp only [← bindable_iff]
      exact State.choice_eq_none
  · intro s src w found cells best
    refine ⟨State.offer_nowhere found, fun busy => State.offer_nowhere found fun c bindable => ?_, fun c good => ?_⟩
    · obtain ⟨l, -, eligible, -⟩ := State.bindable_iff.mp bindable
      exact busy c (State.eligible_idle eligible)
    · have pick := State.pickCell_best good.1 good.2
      exact ⟨State.offer_first found pick, State.offer_again found pick⟩

end Sys2Proof.Machine
end

section
/-! Bindings and their preparation, unbindings and the lot's return (R85, R86, R91 to R94, R102). -/

namespace Sys2Proof.Machine

-- one theorem at a time: many at once, each with a thread of its own, can exceed the memory limit
set_option Elab.async false

/-! ## The parts of a preparation (R92, R93) -/

theorem State.OnlyPorts.tables {s t : State} (h : s.OnlyPorts t) : t.tables = s.tables := by rw [h]

section prepare
variable {s : State} {c : CellNo} {p : Product}

/-- The floor once a tester that does not hold the program is asked for it (R92). -/
def State.programAsked (s : State) (c : CellNo) (program : Id) : State :=
  if s.loadedProgram c = some program then s else
    (s.notifyMember (s.cell c).tester fun id => .nldp id c program).setCell c
      { s.cell c with loadRequest := some program }

theorem State.programAsked_tables (program : Id) : (s.programAsked c program).tables = s.tables := by
  unfold State.programAsked
  split
  · rfl
  · exact (s.onlyPorts_notifyMember _ _).tables

/-- Of the cell the asking changes the load request alone. -/
theorem State.programAsked_cell (program : Id) : ∃ request,
    (s.programAsked c program).cell c = { s.cell c with loadRequest := request } := by
  unfold State.programAsked
  split
  · exact ⟨_, rfl⟩
  · exact ⟨_, State.setCell_cell_same ..⟩

theorem State.buildProgram_eq : s.buildProgram c p = (s.programAsked c p.program,
    if decide (s.loadedProgram c = some p.program) then .notNeeded else .pending,
    if decide (s.loadedProgram c = some p.program) then none else some s.tables.parameters.load) := by
  by_cases held : s.loadedProgram c = some p.program
  · simp [State.buildProgram, State.programAsked, held]
  · have told := State.onlyPorts_notifyMember s (s.cell c).tester fun id => .nldp id c p.program
    simp [State.buildProgram, State.programAsked, held, State.onCell_eq, told.cell, told.tables]

theorem State.buildThermal_same (same : (s.cell c).thermal.setPoint = some p.setPoint) : s.buildThermal c p =
    if (s.cell c).thermal.reached = true then
      if p.soakTime ≤ (s.cell c).thermal.soak then (s, .done, none) else (s, .soaking, none)
    else (s, .settling, some s.tables.parameters.settle) := if_pos same

theorem State.buildThermal_other (other : (s.cell c).thermal.setPoint ≠ some p.setPoint) : s.buildThermal c p =
    ((s.notifyMember (s.cell c).handler fun id => .nstp id c p.setPoint).setCell c
      { s.cell c with thermal := ⟨some p.setPoint, false, 0⟩ }, .settling, some s.tables.parameters.settle) := by
  have told := State.onlyPorts_notifyMember s (s.cell c).handler fun id => .nstp id c p.setPoint
  simp only [State.buildThermal, if_neg other, State.onCell_eq, told.cell, told.tables]

/-- The cell of a bound lot prepares: its preparation has the part of the program and that of the temperature. -/
theorem State.prepare_eq {l : Lot} (bound : s.boundLot c = some l) (src : Option Port) {u : State} {z : Cell}
    {part : ThermalPart} {settle : Option Nat}
    (thermal : (s.programAsked c (s.product l).program).buildThermal c (s.product l) = (u.setCell c z, part, settle)) :
    s.prepare src c = ((u.setCell c
      { z with
        state := .preparing
        preparation := some ⟨if decide (s.loadedProgram c = some (s.product l).program) then .notNeeded else .pending,
          if decide (s.loadedProgram c = some (s.product l).program) then none else some s.tables.parameters.load,
          part, settle⟩ }).ncel c).testPreparation src c := by
  simp only [State.prepare, bound, State.buildProgram_eq, thermal, State.moveCell_eq, State.setCell_cell_same,
    State.setCell_setCell]

end prepare

/-! ## An unbinding (R86) -/

section unbind
variable {s : State} {id : Id} {l : Lot}

/-- The floor once the lot has left its cell, before it joins the queue (R86). -/
def State.unbound (s : State) (c : CellNo) (id : Id) (f : Cell → Cell) : State :=
  ((s.onLot id fun l => { l with cell := none, state := .waiting }).nlot id .unbound).moveCell c
    fun x => f { x with bound := none }

variable (src : Option Port) (c : CellNo) (f : Cell → Cell)

theorem State.unbound_queue : (s.unbound c id f).queue = s.queue := by
  rw [State.unbound, State.moveCell_queue, State.nlot_queue]
  rfl

theorem State.unbound_clock : (s.unbound c id f).clock = s.clock := by
  rw [State.unbound, State.moveCell_clock, State.onlyPorts_nlot]
  rfl

theorem State.unbind_eq {t : State}
    (rejoined : (if (s.unbound c id f).lotUnheld id then (s.unbound c id f).joinQueue id else s.unbound c id f) = t) :
    s.unbind src c id f = if (t.serve src c).inQueue id then (t.serve src c).offer src id else t.serve src c := by
  rw [← rejoined]
  rfl

variable (known : s.lot id = some l)
include known

theorem State.unbound_lot : (s.unbound c id f).lot id = some { l with cell := none, state := .waiting } := by
  rw [State.unbound, State.moveCell_lot, State.nlot_lot]
  exact s.onLot_lot_same _ known fun _ => rfl

/-- A held lot stays out of the queue, whatever the cell then takes. -/
theorem State.unbind_held (out : s.inQueue id = false) (held : l.unheld = false) :
    s.unbind src c id f = (s.unbound c id f).serve src c := by
  have stays : (s.unbound c id f).lotUnheld id = false := (State.lotUnheld_eq (State.unbound_lot c f known)).trans held
  have absent : ((s.unbound c id f).serve src c).inQueue id = false := by
    have fewer : s.Sheds ((s.unbound c id f).serve src c) :=
      ((State.Sheds.refl s).of_same (State.unbound_queue c f)).serve src c
    refine Bool.eq_false_iff.mpr fun queued => Bool.eq_false_iff.mp out ?_
    exact State.inQueue_iff.mpr ((fewer.map Waiting.lot).subset (State.inQueue_iff.mp queued))
  rw [State.unbind_eq src c f (if_neg (by simp [stays])), absent]
  rfl

/-- An unheld lot joins the queue, and is offered if the cell does not take it. -/
theorem State.unbind_unheld (unheld : l.unheld = true) {served : State}
    (serves : ({ (s.unbound c id f).onLot id (fun l => { l with joinStamp := s.clock.stamp }) with
      queue := s.queue ++ [⟨id, l.basePriority⟩] } : State).serve src c = served) :
    s.unbind src c id f = if served.inQueue id then served.offer src id else served := by
  have known := State.unbound_lot c f known
  have joins : (s.unbound c id f).lotUnheld id = true := (State.lotUnheld_eq known).trans unheld
  have joined : (s.unbound c id f).joinQueue id =
      { (s.unbound c id f).onLot id (fun l => { l with joinStamp := s.clock.stamp }) with
        queue := s.queue ++ [⟨id, l.basePriority⟩] } := by
    rw [State.joinQueue, known, State.unbound_clock]
    dsimp only
    rw [State.onLot_queue, State.unbound_queue]
  rw [State.unbind_eq src c f (if_pos joins), joined, serves]

end unbind

/-- Settles O27: what a binding builds, how its completion goes on, and what an unbinding returns. -/
theorem bindingPreparesCellAndUnbindingReturnsLot : Obligations.BindingPreparesCellAndUnbindingReturnsLot := by
  refine ⟨fun _ _ _ _ => rfl, ?_, ?_, ?_⟩
  · intro s src c l bound product p x held asked y program load build
    have asked_eq : asked = s.programAsked c product.program := by
      simp only [asked, held, State.programAsked, decide_eq_true_eq, x]
    obtain ⟨request, cell⟩ := s.programAsked_cell (c := c) product.program
    have tables := s.programAsked_tables (c := c) product.program
    rw [← asked_eq] at cell tables
    have thermal : (asked.cell c).thermal = x.thermal := by rw [cell]
    have handler : (asked.cell c).handler = x.handler := by rw [cell]
    have builds {u : State} {z : Cell} {part : ThermalPart} {settle : Option Nat}
        (thermal : asked.buildThermal c product = (u.setCell c z, part, settle)) :
        s.prepare src c = build u z part settle := State.prepare_eq bound src (asked_eq ▸ thermal)
    refine ⟨fun same reached soaked => builds ?_, fun same reached unsoaked => builds ?_,
      fun same unreached => builds ?_, fun other => builds ?_⟩
    · rw [State.buildThermal_same (by rw [thermal, same]), thermal, if_pos reached, if_pos soaked, State.setCell_self]
    · rw [State.buildThermal_same (by rw [thermal, same]), thermal, if_pos reached,
        if_neg (Nat.not_le.mpr unsoaked), State.setCell_self]
    · rw [State.buildThermal_same (by rw [thermal, same]), thermal, if_neg (by simp [unreached]),
        State.setCell_self, tables]
    · rw [State.buildThermal_other (by rwa [thermal]), tables, ← handler]
  · intro s src c q l preparation bound complete max passed
    have bound' : complete.boundLot c = some l :=
      (State.boundLot_setCell (y := { s.cell c with preparation := none }) rfl).trans bound
    refine ⟨fun waits => State.testPreparation_waits src preparation ?_, fun loaded settled => ?_⟩
    · obtain pending | unsettled := waits
      · simp [Preparation.complete, pending]
      · simp [Preparation.complete, unsettled]
    have whole : q.complete = true := by simp [Preparation.complete, loaded, settled]
    refine ⟨State.testPreparation_held src preparation whole bound, ?_, ?_, ?_⟩ <;> intro unheld work <;>
      rw [State.testPreparation_unheld src preparation whole bound unheld]
    · exact State.goOn_works src bound' work
    · exact State.goOn_retests src bound' work
    · exact State.goOn_tests src bound' work
  · intro s src c id l f known out _ _ _
    exact ⟨State.unbind_held src c f known out, fun unheld => State.unbind_unheld src c f known unheld rfl⟩

end Sys2Proof.Machine
end

section
/-! Runs that open, and runs that end at the handler's report or at the last owed result (R102, R103, R105 to R107,
R124). -/

namespace Sys2Proof.Machine

-- one theorem at a time: many at once, each with a thread of its own, can exceed the memory limit
set_option Elab.async false

/-! ## A run opens (R102, R103) -/

/-- Settles O28: the two branches of a run's open, by the active site set. -/
theorem runOpensOnActiveSites : Obligations.RunOpensOnActiveSites := fun _ _ _ _ =>
  ⟨fun active => if_neg active, fun empty => if_pos empty⟩

/-! ## A member's request (R8, R24, R95) -/

/-- A known sender's request other than EANN: whatever its owner makes of the refreshed table is answered. -/
theorem exec_carries_sent {α : Type} {i : Instr} {s : State} {p : Port} {r : Req} {mine : List Byte → Bool}
    {read : List Byte → Checked α} {owner : Owner α} {id : Id} {payload : List Byte} {j : Position} {e : Entry} {a : α}
    (runs : exec i s = .next (s.request p r mine read owner)) (sends : s.Sends p r id payload j e)
    (other : r ≠ .eann) (fits : mine payload = true) (reads : read payload = .ok a) :
    ∃ f, f.source = id ∧ ∀ {v : State} {reply : Reply}, owner f a (s.refresh j e p) = (v, reply) →
      exec i s = .next ((v.reportReturn e.returnsTo id).answer p (some r) reply) := by
  obtain ⟨f, source, carried⟩ := State.request_sent (mine := mine) (owner := owner) sends other fits reads
  refine ⟨f, source, fun out => ?_⟩
  rw [out] at carried
  rw [runs, carried]

section sender
variable {s : State} {c : CellNo} {id : Id}

theorem State.senderFault_stranger (kind : EquipKind) (handler : (s.cell c).handler ≠ some id)
    (tester : (s.cell c).tester ≠ some id) :
    s.senderFault c id kind = some (.check .unknownCell (arg c.val)) := by
  simp [State.senderFault, Cell.hasMember, handler, tester]

theorem State.senderFault_notTester (handler : (s.cell c).handler = some id) (tester : (s.cell c).tester ≠ some id) :
    s.senderFault c id .tester = some (.check .kindMismatch id) := by
  simp [State.senderFault, Cell.hasMember, handler, tester]

theorem State.senderFault_notHandler (tester : (s.cell c).tester = some id) (handler : (s.cell c).handler ≠ some id) :
    s.senderFault c id .handler = some (.check .kindMismatch id) := by
  simp [State.senderFault, Cell.hasMember, handler, tester]

theorem State.senderFault_tester (tester : (s.cell c).tester = some id) : s.senderFault c id .tester = none := by
  simp [State.senderFault, Cell.hasMember, tester]

theorem State.senderFault_handler (handler : (s.cell c).handler = some id) : s.senderFault c id .handler = none := by
  simp [State.senderFault, Cell.hasMember, handler]

end sender

/-! ## The end of a run against the results counted (R106, R107, R124) -/

theorem excessHold_of_le {binned count : Nat} (within : binned ≤ count) : excessHold binned count = none :=
  if_neg (Nat.not_lt.mpr within)

theorem excessHold_of_lt {binned count : Nat} (above : count < binned) :
    excessHold binned count = some (1, binned - count) := if_pos above

section close
variable {s : State} {c : CellNo} (src : Option Port)

theorem State.testClose_elsewhere (other : (s.cell c).state ≠ .closing) : s.testClose src c = s := by
  unfold State.testClose
  split
  · exact absurd ‹_› other
  · rfl

/-- In CLOSING the run closes exactly when no result is owed any more. -/
theorem State.testClose_closing {r : Run} {count : Nat} {reason : EndReason} (closing : (s.cell c).state = .closing)
    (run : (s.cell c).run = some r) (handlerCount : r.handlerCount = some count)
    (endReason : r.endReason = some reason) : s.testClose src c =
      if count ≤ r.binned then s.closeRun src c (excessHold r.binned count) reason else s := by
  simp [State.testClose, closing, run, handlerCount, endReason]

variable (r : Run) (count : Nat) (reason : EndReason)

/-- The run that ERND has ended: the handler's count and the reason stand in it (R105). -/
def Run.ended : Run := { r with handlerCount := some count, endReason := some reason }

theorem State.evaluateEnd_owed (owed : r.binned < count) : s.evaluateEnd src c r count reason =
    ((s.setCell c
      { s.cell c with
        state := .closing
        run := some { r.ended count reason with closeDeadline := some s.tables.parameters.close } }).ncel c, 2) := by
  rw [State.evaluateEnd, if_pos owed, State.enterClosing, State.moveCell_eq, State.onCell_eq, State.setCell_cell_same,
    State.setCell_setCell]
  rfl

theorem State.evaluateEnd_closes (all : count ≤ r.binned) : s.evaluateEnd src c r count reason =
    ((s.setCell c { s.cell c with run := some (r.ended count reason) }).closeRun src c (excessHold r.binned count)
      reason, 1) := by
  rw [State.evaluateEnd, if_neg (Nat.not_lt.mpr all)]
  rfl

end close

/-! ## ERND (R105) -/

/-- A 16-bit number is the one that a request spells exactly when their values agree. -/
theorem eq_ofNat_iff_toNat {v : BitVec 16} {n : Nat} (fits : n ≤ 65535) : v = BitVec.ofNat 16 n ↔ v.toNat = n := by
  rw [← BitVec.toNat_inj, BitVec.toNat_ofNat, Nat.mod_eq_of_lt (by omega)]

section ernd
variable {s : State} {p : Port} {f : Frame} {a : ErndFields}

theorem erndOwner_faulty {reply : Reply} (fault : s.senderFault a.cell f.source .handler = some reply) :
    erndOwner p f a s = (s, reply) := by
  simp [erndOwner, fault]

variable (handler : (s.cell a.cell).handler = some f.source)
include handler

theorem erndOwner_noRun (none : (s.cell a.cell).run = none) :
    erndOwner p f a s = (s, .check .runClosed (arg a.cell.val)) := by
  simp [erndOwner, State.senderFault_handler handler, none]

variable {r : Run} (run : (s.cell a.cell).run = some r) (range : a.InRange)
include run range

theorem erndOwner_wrongRun (other : r.number.toNat ≠ a.run) :
    erndOwner p f a s = (s, .check .wrongRun (arg a.cell.val)) := by
  simp [erndOwner, State.senderFault_handler handler, run, eq_ofNat_iff_toNat range.1, other]

variable (number : r.number.toNat = a.run)
include number

theorem erndOwner_refuses
    (state : (s.cell a.cell).state = .closing ∨ (a.reason = .stopped ∧ r.stopFlag = false)) :
    erndOwner p f a s = (s, .check .cellState (arg a.cell.val)) := by
  obtain closing | unstopped := state
  · simp [erndOwner, State.senderFault_handler handler, run, eq_ofNat_iff_toNat range.1, number, closing]
  · simp [erndOwner, State.senderFault_handler handler, run, eq_ofNat_iff_toNat range.1, number, unstopped]

theorem erndOwner_ends (open_ : (s.cell a.cell).state ≠ .closing)
    (reason : a.reason = .exhausted ∨ r.stopFlag = true) : erndOwner p f a s =
      ((s.evaluateEnd (some p) a.cell r a.count a.reason).1,
        .good [(s.evaluateEnd (some p) a.cell r a.count a.reason).2]) := by
  have may : ¬(a.reason = .stopped ∧ r.stopFlag = false) := by
    obtain exhausted | stopped := reason
    · simp [exhausted]
    · simp [stopped]
  simp [erndOwner, State.senderFault_handler handler, run, eq_ofNat_iff_toNat range.1, number, open_, may]

end ernd

/-- Settles O46: the close test by B against C, and ERND's refusals and outcomes in the order of R105. -/
theorem runEndClosesOrAwaitsResults : Obligations.RunEndClosesOrAwaitsResults := by
  refine ⟨fun s src c => ⟨State.testClose_elsewhere src, ?_⟩, ?_⟩
  · intro r count reason closing run handlerCount endReason
    have decided := State.testClose_closing src closing run handlerCount endReason
    refine ⟨fun owed => ?_, fun all => ?_, fun above => ?_⟩
    · rw [decided, if_neg (Nat.not_le.mpr owed)]
    · rw [decided, if_pos all.ge, excessHold_of_le all.le]
    · rw [decided, if_pos above.le, excessHold_of_lt above]
  · intro s p id i e f range sends c u x answers
    obtain ⟨frame, rfl, answered⟩ := exec_carries_sent (i := .ernd p) (owner := erndOwner p) rfl sends (by simp) rfl
      (readErnd_bytes range)
    refine ⟨fun handler tester => answered (erndOwner_faulty (State.senderFault_stranger .handler handler tester)),
      fun tester handler => answered (erndOwner_faulty (State.senderFault_notHandler tester handler)),
      fun handler => ⟨fun none => answered (erndOwner_noRun handler none), fun r run => ?_⟩⟩
    intro taken ended
    refine ⟨fun other => answered (erndOwner_wrongRun handler run range other), fun number => ?_⟩
    have refused := answered ∘ erndOwner_refuses (p := p) (s := u) handler run range number
    refine ⟨fun closing => refused (.inl closing), fun stopped unset => refused (.inr ⟨stopped, unset⟩),
      fun open_ reason => ?_⟩
    have ends := erndOwner_ends (p := p) (s := u) handler run range number open_ reason
    refine ⟨fun owed => answered ?_, fun all => answered ?_, fun above => answered ?_⟩
    · rw [ends, State.evaluateEnd_owed _ _ _ _ owed]
      rfl
    · rw [ends, State.evaluateEnd_closes _ _ _ _ all.ge, excessHold_of_le all.le]
      rfl
    · rw [ends, State.evaluateEnd_closes _ _ _ _ above.le, excessHold_of_lt above]
      rfl

end Sys2Proof.Machine
end

section
/-! What answers a cell's load request and its set point: EPLD, ELDF and ETMP (R95 to R98). -/

namespace Sys2Proof.Machine

-- one theorem at a time: many at once, each with a thread of its own, can exceed the memory limit
set_option Elab.async false

/-! ## A cell that awaits its program or its temperature -/

theorem Cell.awaitsProgram_iff {x : Cell} : x.awaitsProgram = true ↔
    x.state = .preparing ∧ ∃ q, x.preparation = some q ∧ q.program = .pending := by
  simp [Cell.awaitsProgram]

section program
variable {s : State} {c : CellNo} (src : Option Port)

/-! ## A load request answered without success (R96, R97) -/

theorem State.programRefused_idle (idle : (s.cell c).awaitsProgram = false) : s.programRefused src c =
    s.setCell c { s.cell c with loadRequest := none } := by
  rw [State.programRefused, idle]
  rfl

/-- The preparation that awaits the program fails, and its lot is unbound. -/
theorem State.programRefused_awaited {l : Lot} (awaits : (s.cell c).awaitsProgram = true)
    (bound : s.boundLot c = some l) : s.programRefused src c =
      (s.setCell c
        { s.cell c with loadRequest := none, failed := some (s.product l).program, preparation := none }).unbind src c
          l.id fun x => { x with state := .idle } := by
  have bound' : (s.setCell c { s.cell c with loadRequest := none }).boundLot c = some l :=
    (State.boundLot_setCell (y := { s.cell c with loadRequest := none }) rfl).trans bound
  rw [State.programRefused, awaits, if_pos rfl, State.onCell_eq, State.loadFailed_eq src bound',
    State.setCell_cell_same, State.setCell_setCell]
  rfl

/-! ## A load request answered with the program (R95) -/

variable {id program : Id} {i : Position} {e : Entry} {t : TesterAbility} (found : s.find id = some (i, e))
  (tester : e.ability = .tester t)
include found tester

/-- The tester's entry holds the program, the request is gone, and a program part that awaits it is complete. -/
theorem State.programLoaded_eq : s.programLoaded src c id program =
    let u := s.setEntry i (some { e with ability := .tester { t with program := program } })
    let answered : Cell := { s.cell c with loadRequest := none }
    if (s.cell c).awaitsProgram = true then
      ((u.setCell c
        { answered with
          preparation := answered.preparation.map fun q => { q with program := .done, loadDeadline := none }
        }).testPreparation src c).serve src c
    else u.setCell c answered := by
  simp only [State.programLoaded, State.onEquip_of_find _ found, tester, State.onCell_eq, State.setCell_cell_same,
    State.setCell_setCell, State.setEntry_cell]

theorem State.programLoaded_idle (idle : (s.cell c).awaitsProgram = false) : s.programLoaded src c id program =
    (s.setEntry i (some { e with ability := .tester { t with program := program } })).setCell c
      { s.cell c with loadRequest := none } :=
  (State.programLoaded_eq src found tester).trans (if_neg (Bool.eq_false_iff.mp idle))

/-- Its completion is then tested. -/
theorem State.programLoaded_awaited {q : Preparation} (preparing : (s.cell c).state = .preparing)
    (preparation : (s.cell c).preparation = some q) (pending : q.program = .pending) :
    s.programLoaded src c id program =
      (((s.setEntry i (some { e with ability := .tester { t with program := program } })).setCell c
        { s.cell c with
          loadRequest := none
          preparation := some { q with program := .done, loadDeadline := none } }).testPreparation src c).serve src
        c := by
  have awaits := Cell.awaitsProgram_iff.mpr ⟨preparing, q, preparation, pending⟩
  refine ((State.programLoaded_eq src found tester).trans (if_pos awaits)).trans ?_
  rw [preparation]
  rfl

end program

/-! ## The set point reached (R98) -/

section temperature
variable {s : State} {c : CellNo} (src : Option Port)

/-- The cell at its set point, its soak begun (R98). -/
def Cell.atSetPoint (x : Cell) : Cell := { x with thermal := { x.thermal with reached := true, soak := 0 } }

theorem State.temperatureReached_other (other : ¬((s.cell c).state = .preparing
      ∧ ∃ q, (s.cell c).preparation = some q ∧ q.thermal = .settling)) :
    s.temperatureReached src c = s.setCell c (s.cell c).atSetPoint := by
  unfold State.temperatureReached
  dsimp only
  rw [State.onCell_eq, State.setCell_cell_same]
  split
  · rename_i q preparing preparation
    exact if_neg fun settling => other ⟨preparing, q, preparation, settling⟩
  · rfl

variable {q : Preparation} {l : Lot} (preparing : (s.cell c).state = .preparing)
  (preparation : (s.cell c).preparation = some q) (settling : q.thermal = .settling) (bound : s.boundLot c = some l)
include preparing preparation settling bound

/-- A SETTLING preparation goes on, and its completion is tested. -/
theorem State.temperatureReached_settling : s.temperatureReached src c =
    ((s.setCell c
      { (s.cell c).atSetPoint with
        preparation := some { q with
          settleDeadline := none, thermal := if (s.product l).soakTime = 0 then .done else .soaking }
      }).testPreparation src c).serve src c := by
  unfold State.temperatureReached
  rw [bound]
  dsimp only
  rw [State.onCell_eq, State.setCell_cell_same]
  split
  · rename_i stands
    obtain rfl := Option.some.inj (preparation.symm.trans stands)
    rw [if_pos settling, State.onCell_eq, State.setCell_cell_same, State.setCell_setCell]
    rfl
  · rename_i other
    exact (other q preparing preparation).elim

theorem State.temperatureReached_soaking (soaks : (s.product l).soakTime ≠ 0) : s.temperatureReached src c =
    s.setCell c
      { (s.cell c).atSetPoint with preparation := some { q with settleDeadline := none, thermal := .soaking } } := by
  rw [State.temperatureReached_settling src preparing preparation settling bound, if_neg soaks,
    State.testPreparation_waits src (q := { q with settleDeadline := none, thermal := .soaking }) (by simp)
      (by simp [Preparation.complete])]
  exact State.serve_of_busy (by simp [Cell.atSetPoint, preparing]) src

end temperature

/-! ## The owners of EPLD, ELDF and ETMP -/

section owners
variable {s : State} {p : Port} {f : Frame} {c : CellNo} {program : Id} {reply : Reply}

theorem epldOwner_faulty (fault : s.senderFault c f.source .tester = some reply) :
    epldOwner p f (c, program) s = (s, reply) := by
  simp [epldOwner, fault]

theorem eldfOwner_faulty (fault : s.senderFault c f.source .tester = some reply) :
    eldfOwner p f (c, program) s = (s, reply) := by
  simp [eldfOwner, fault]

theorem etmpOwner_faulty {t : Int} (fault : s.senderFault c f.source .handler = some reply) :
    etmpOwner p f (c, t) s = (s, reply) := by
  simp [etmpOwner, fault]

section tester
variable (tester : (s.cell c).tester = some f.source)
include tester

theorem epldOwner_unasked (unasked : (s.cell c).loadRequest = none) :
    epldOwner p f (c, program) s = (s, .check .cellState (arg c.val)) := by
  simp [epldOwner, State.senderFault_tester tester, unasked]

theorem epldOwner_loads (asked : (s.cell c).loadRequest = some program) :
    epldOwner p f (c, program) s = (s.programLoaded (some p) c f.source program, .good []) := by
  simp [epldOwner, State.senderFault_tester tester, asked]

theorem epldOwner_otherProgram {asked : Id} (request : (s.cell c).loadRequest = some asked) (other : program ≠ asked) :
    epldOwner p f (c, program) s = (s.programRefused (some p) c, .good []) := by
  simp [epldOwner, State.senderFault_tester tester, request, other]

theorem eldfOwner_unasked (unasked : (s.cell c).loadRequest ≠ some program) :
    eldfOwner p f (c, program) s = (s, .check .cellState (arg c.val)) := by
  simp [eldfOwner, State.senderFault_tester tester, unasked]

theorem eldfOwner_fails (asked : (s.cell c).loadRequest = some program) :
    eldfOwner p f (c, program) s = (s.programRefused (some p) c, .good []) := by
  simp [eldfOwner, State.senderFault_tester tester, asked]

end tester

variable {t : Int} (handler : (s.cell c).handler = some f.source)
include handler

theorem etmpOwner_otherPoint (other : (s.cell c).thermal.setPoint ≠ some t) :
    etmpOwner p f (c, t) s = (s, .check .cellState (arg c.val)) := by
  simp [etmpOwner, State.senderFault_handler handler, other]

theorem etmpOwner_again (same : (s.cell c).thermal.setPoint = some t) (reached : (s.cell c).thermal.reached = true) :
    etmpOwner p f (c, t) s = (s, .good []) := by
  simp [etmpOwner, State.senderFault_handler handler, same, reached]

theorem etmpOwner_reaches (same : (s.cell c).thermal.setPoint = some t)
    (reached : (s.cell c).thermal.reached = false) :
    etmpOwner p f (c, t) s = (s.temperatureReached (some p) c, .good []) := by
  simp [etmpOwner, State.senderFault_handler handler, same, reached]

end owners

/-- Settles O45: the sender's checks, and what each report does to the request, the part that awaits it and the cell. -/
theorem preparationReports : Obligations.PreparationReports := by
  refine ⟨fun s p id i e c program nonzero => ?_, fun s p id i e c t low high sends => ?_⟩
  · intro u x awaits failing removed
    have idle (quiet : ¬awaits) : (u.cell c).awaitsProgram = false :=
      Bool.eq_false_iff.mpr (mt Cell.awaitsProgram_iff.mp quiet)
    have refused (quiet : ¬awaits) : u.programRefused (some p) c = removed :=
      State.programRefused_idle (some p) (idle quiet)
    have fails {l : Lot} (waits : awaits) (bound : s.boundLot c = some l) : u.programRefused (some p) c = failing l :=
      State.programRefused_awaited (some p) (Cell.awaitsProgram_iff.mpr waits) bound
    refine ⟨fun sends => ?_, fun sends => ?_⟩
    · intro answers
      have found : s.find id = some (i, e) := sends.2.1
      have refreshed : u.find id = some (i, { e with age := 0, state := .present, port := p }) :=
        State.find_setEntry found (State.find_entry found).2
      obtain ⟨f, rfl, answered⟩ := exec_carries_sent (i := .epld p) (owner := epldOwner p) rfl sends (by simp) rfl
        (readProgram_bytes c nonzero)
      refine ⟨fun handler tester => answered (epldOwner_faulty (State.senderFault_stranger .tester handler tester)),
        fun handler tester => answered (epldOwner_faulty (State.senderFault_notTester handler tester)), fun tester =>
        ⟨fun unasked => answered (epldOwner_unasked tester unasked), fun t asked ability => ?_,
          fun asked request other => ?_⟩⟩
      · intro held
        have loads := epldOwner_loads (p := p) (s := u) tester asked
        refine ⟨fun quiet => answered ?_, fun q preparing preparation pending => answered ?_⟩
        · rw [loads, State.programLoaded_idle _ refreshed ability (idle quiet)]
          rfl
        · rw [loads, State.programLoaded_awaited _ refreshed ability preparing preparation pending]
          rfl
      · have refuses := epldOwner_otherProgram (p := p) (s := u) tester request other
        refine ⟨fun quiet => answered ?_, fun l waits bound => answered ?_⟩
        · rw [refuses, refused quiet]
        · rw [refuses, fails waits bound]
    · intro answers
      obtain ⟨f, rfl, answered⟩ := exec_carries_sent (i := .eldf p) (owner := eldfOwner p) rfl sends (by simp) rfl
        (readProgram_bytes c nonzero)
      refine ⟨fun handler tester => answered (eldfOwner_faulty (State.senderFault_stranger .tester handler tester)),
        fun handler tester => answered (eldfOwner_faulty (State.senderFault_notTester handler tester)), fun tester =>
        ⟨fun unasked => answered (eldfOwner_unasked tester unasked), fun asked quiet => answered ?_,
          fun l asked waits bound => answered ?_⟩⟩
      · rw [eldfOwner_fails (s := u) tester asked, refused quiet]
      · rw [eldfOwner_fails (s := u) tester asked, fails waits bound]
  · intro u x answers reached
    obtain ⟨f, rfl, answered⟩ := exec_carries_sent (i := .etmp p) (owner := etmpOwner p) rfl sends (by simp) rfl
      (readEtmp_bytes c low high)
    refine ⟨fun handler tester => answered (etmpOwner_faulty (State.senderFault_stranger .handler handler tester)),
      fun tester handler => answered (etmpOwner_faulty (State.senderFault_notHandler tester handler)), fun handler =>
      ⟨fun other => answered (etmpOwner_otherPoint handler other), fun same again =>
        answered (etmpOwner_again handler same again), fun same first => ?_⟩⟩
    have reaches := etmpOwner_reaches (p := p) (s := u) handler same first
    refine ⟨fun other => answered ?_, fun q l preparing preparation settling bound =>
      ⟨fun soaks => answered ?_, fun soakless => answered ?_⟩⟩
    · rw [reaches, State.temperatureReached_other (s := u) _ other]
      rfl
    · rw [reaches, State.temperatureReached_soaking (s := u) _ preparing preparation settling bound soaks]
      rfl
    · have soakless : (u.product l).soakTime = 0 := soakless
      rw [reaches, State.temperatureReached_settling (s := u) _ preparing preparation settling bound, if_pos soakless]
      rfl

end Sys2Proof.Machine
end

section
/-! Pass completion, and what the close of a run decides of the lot and the cell (R102, R108 to R110). -/

namespace Sys2Proof.Machine

-- one theorem at a time: many at once, each with a thread of its own, can exceed the memory limit
set_option Elab.async false

/-! ## Work left, and pass completion (R102, R109) -/

section pass
variable {l m : Lot} {n : Nat}

theorem Lot.hasWork_iff : l.hasWork = true ↔
    (l.pass = 0 ∧ l.tested + l.lost < l.started) ∨ (l.pass ≠ 0 ∧ ∃ b : Fin 16, l.poolNow[b] ≠ 0) := by
  by_cases first : l.pass = 0
  · simp [Lot.hasWork, first]
  · simp only [Lot.hasWork, first, if_false, Bool.not_eq_true', Bins.isZero_eq_false, false_and, false_or, ne_eq,
      not_false_eq_true, true_and]

theorem Lot.completePass_again (again : l.retests n = true) : l.completePass n =
    { l with poolNow := l.poolNow.add l.poolNext, poolNext := Bins.zero, pass := l.pass + 1 } := by
  rw [Lot.completePass, if_pos again, Lot.mergePool]

theorem Lot.completePass_last (last : l.retests n = false) : l.completePass n =
    { l with final := l.final.add (l.poolNow.add l.poolNext), poolNow := Bins.zero, poolNext := Bins.zero } := by
  rw [Lot.completePass, if_neg (Bool.eq_false_iff.mp last), Lot.closePool, Lot.mergePool]

/-- The units that a pass completion moves keep their sum. -/
theorem Lot.completePass_total (l : Lot) (n : Nat) : (l.completePass n).final.total + (l.completePass n).poolNow.total
    + (l.completePass n).poolNext.total = l.final.total + l.poolNow.total + l.poolNext.total := by
  cases more : l.retests n with
  | true =>
    rw [Lot.completePass_again more]
    simp only [Bins.total_add, Bins.total_zero]
    omega
  | false =>
    rw [Lot.completePass_last more]
    simp only [Bins.total_add, Bins.total_zero]
    omega

/-! ## What a lot's pass is read from -/

/-- The product of a lot and its account: all that decides how its pass goes on (R102, R109). -/
def Lot.work (l : Lot) : Id × Fin 32 × Account := (l.id, l.product, l.account)

theorem Lot.work_eq_iff : m.work = l.work ↔ m.id = l.id ∧ m.product = l.product ∧ m.pass = l.pass
    ∧ m.started = l.started ∧ m.tested = l.tested ∧ m.lost = l.lost ∧ m.final = l.final ∧ m.poolNow = l.poolNow
    ∧ m.poolNext = l.poolNext := by
  simp only [Lot.work, Lot.account, Prod.mk.injEq, Account.mk.injEq]

theorem Lot.hasWork_of_work (same : m.work = l.work) : m.hasWork = l.hasWork := by
  obtain ⟨-, -, pass, started, tested, lost, -, now, -⟩ := Lot.work_eq_iff.mp same
  simp only [Lot.hasWork, pass, started, tested, lost, now]

theorem Lot.retests_of_work (same : m.work = l.work) (n : Nat) : m.retests n = l.retests n := by
  obtain ⟨-, -, pass, -, -, -, -, now, next⟩ := Lot.work_eq_iff.mp same
  simp only [Lot.retests, Lot.mergePool, pass, now, next]

theorem shortfall_of_work (same : m.work = l.work) (reason : EndReason) : shortfall m reason = shortfall l reason := by
  obtain ⟨-, -, pass, started, tested, lost, -, now, -⟩ := Lot.work_eq_iff.mp same
  simp only [shortfall, Lot.hasWork_of_work same, pass, started, tested, lost, now]

end pass

/-! ## Holds leave the work of every lot -/

/-- Every lot of the table keeps its work, and the tables of products stay. -/
structure State.KeepsWork (s t : State) : Prop where
  tables : t.tables = s.tables
  work   : t.lots.map Lot.work = s.lots.map Lot.work

namespace State.KeepsWork

variable {r s t : State}

theorem refl (s : State) : s.KeepsWork s := ⟨rfl, rfl⟩

theorem of_records (h : r.KeepsWork s) (lots : t.lots = s.lots := by rfl) (tables : t.tables = s.tables := by rfl) :
    r.KeepsWork t := ⟨tables.trans h.tables, lots ▸ h.work⟩

theorem of_onlyPorts (h : r.KeepsWork s) (ports : s.OnlyPorts t) : r.KeepsWork t := by
  rw [ports]
  exact h.of_records

theorem of_ite {p : Prop} [Decidable p] (h : p → r.KeepsWork s) (k : ¬p → r.KeepsWork t) :
    r.KeepsWork (if p then s else t) := by
  split
  · exact h ‹_›
  · exact k ‹_›

theorem onLot (h : r.KeepsWork s) (id : Id) (f : Lot → Lot) (same : ∀ l, (f l).work = l.work := by exact fun _ => rfl) :
    r.KeepsWork (s.onLot id f) := ⟨h.tables, (State.onLot_map same).trans h.work⟩

theorem setCell (h : r.KeepsWork s) (c : CellNo) (x : Cell) : r.KeepsWork (s.setCell c x) := h.of_records

theorem nlot (h : r.KeepsWork s) (id : Id) (cause : Cause) (hold : Option (HoldKind × Nat) := none) :
    r.KeepsWork (s.nlot id cause hold) := h.of_onlyPorts (s.onlyPorts_nlot id cause hold)

theorem firstHold (h : r.KeepsWork s) (id : Id) : r.KeepsWork (s.firstHold id) := by
  obtain e | e | ⟨c, e⟩ | e := s.firstHold_cases id <;> rw [e]
  · exact h
  · exact h.of_records
  · obtain e | ⟨_, -, -, u, ports, e⟩ := s.stopRun_cases c <;> rw [e]
    · exact h
    · exact (h.of_onlyPorts ports).of_records
  · exact ((h.of_records (t := s.dropShipment id)).onLot id fun l => { l with state := .accepted }).nlot id .withdrawn

theorem placeHold (h : r.KeepsWork s) (src : Option Port) (id : Id) (kind : HoldKind) (a d : Nat) :
    r.KeepsWork (s.placeHold src id kind a d) := by
  obtain e | ⟨-, -, e⟩ | ⟨l, -, -, -, e⟩ := s.placeHold_cases src id kind a d <;> rw [e]
  · exact h
  · have flagged := (h.onLot id fun l => { l with overflow := true }).nlot id .overflowSet
    obtain e | ⟨_, -, -, e | e⟩ := s.setOverflow_cases id <;> rw [e]
    · exact h
    · exact flagged
    · exact flagged.firstHold id
  · have listed : r.KeepsWork { s with holds := s.holds ++ [⟨id, kind, a, d, src, s.clock.stamp, 0⟩] } := h.of_records
    have placed := (listed.onLot id fun l => { l with holdCount := l.holdCount + 1 }).nlot id .holdPlaced
      (some (kind, a))
    exact of_ite (fun _ => placed.firstHold id) fun _ => placed

theorem placeCloseHold (h : r.KeepsWork s) (src : Option Port) (id : Id) (hold : CloseHold) :
    r.KeepsWork (s.placeCloseHold src id hold) := by
  cases hold with
  | none => exact h
  | some place => exact h.placeHold ..

/-- The lot of an id is found with its work as it was. -/
theorem lot (h : s.KeepsWork t) {id : Id} {l : Lot} (known : s.lot id = some l) :
    ∃ m, t.lot id = some m ∧ m.work = l.work := by
  have found (v : State) : (v.lot id).map Lot.work = (v.lots.map Lot.work).find? fun x => x.1 = id := by
    rw [List.find?_map]
    rfl
  have same : (t.lot id).map Lot.work = some l.work := by
    rw [found, h.work, ← found, known]
    rfl
  exact Option.map_eq_some_iff.mp same

theorem product (h : s.KeepsWork t) {l m : Lot} (same : m.work = l.work) : t.product m = s.product l := by
  obtain ⟨-, product, -⟩ := Lot.work_eq_iff.mp same
  simp only [State.product, h.tables, product]

end State.KeepsWork

/-! ## The close of a run (R108) -/

/-- The floor once the run is discarded and the holds of its close are placed (R108 steps 1 and 2). -/
def State.runClosed (s : State) (src : Option Port) (c : CellNo) (id : Id) (h short : CloseHold) : State :=
  ((s.setCell c { s.cell c with run := none }).placeCloseHold src id h).placeCloseHold src id short

theorem State.KeepsWork.runClosed (s : State) (src : Option Port) (c : CellNo) (id : Id) (h short : CloseHold) :
    s.KeepsWork (s.runClosed src c id h short) :=
  (((refl s).setCell c _).placeCloseHold src id h).placeCloseHold src id short

/-- The shortfall is the one that the lot had when its run closed: the hold of the close leaves its work. -/
theorem State.closeRun_eq {s : State} {c : CellNo} {id : Id} {l : Lot} (bound : (s.cell c).bound = some id)
    (known : s.lot id = some l) (src : Option Port) (h : CloseHold) (reason : EndReason) : s.closeRun src c h reason =
      ((s.runClosed src c id h (shortfall l reason)).afterClose src c id).serve src c := by
  have kept : s.KeepsWork ((s.setCell c { s.cell c with run := none }).placeCloseHold src id h) :=
    ((State.KeepsWork.refl s).setCell c _).placeCloseHold src id h
  obtain ⟨m, known', same⟩ := kept.lot known
  rw [State.closeRun, bound]
  dsimp only
  rw [State.onCell_eq, known', Option.bind_some, shortfall_of_work same]
  rfl

/-! ## What becomes of the lot and the cell (R109, R110) -/

section afterClose
variable {s : State} {c : CellNo} {id : Id} {l : Lot} (src : Option Port) (known : s.lot id = some l)
include known

theorem State.afterClose_works (work : l.hasWork = true) : s.afterClose src c id =
    if l.unheld = true then s.openRun src c l else s.moveCell c fun x => { x with state := .paused } := by
  simp [State.afterClose, known, work, State.lotUnheld_eq known]

variable (done : l.hasWork = false)
include done

theorem State.afterClose_retests (again : l.retests (s.product l).maxRetests = true) : s.afterClose src c id =
    let passed := s.onLot id fun m => m.completePass (s.product l).maxRetests
    if l.unheld = true then passed.openRun src c (l.completePass (s.product l).maxRetests)
    else passed.moveCell c fun x => { x with state := .paused } := by
  have stays (m : Lot) := m.completePass_stays (s.product l).maxRetests
  have unheld : (s.onLot id fun m => m.completePass (s.product l).maxRetests).lotUnheld id = l.unheld := by
    rw [State.onLot_lotUnheld known (fun m => (stays m).id), if_pos rfl, (stays l).unheld]
  simp [State.afterClose, known, done, again, unheld]

theorem State.afterClose_tests (last : l.retests (s.product l).maxRetests = false) : s.afterClose src c id =
    (s.onLot id fun m => m.completePass (s.product l).maxRetests).lotTested src c id := by
  simp [State.afterClose, known, done, last]

end afterClose

/-- A PAUSED cell is served nothing (R82). -/
theorem State.serve_paused (s : State) (src : Option Port) (c : CellNo) :
    (s.moveCell c fun x => { x with state := .paused }).serve src c =
      s.moveCell c fun x => { x with state := .paused } := by
  refine State.serve_of_busy ?_ src
  rw [State.moveCell_eq, State.ncel_cell, State.setCell_cell_same]
  simp

/-- Settles O29: the two ends of a pass, and a close, whose holds leave the lot's work, followed by what that work
asks. -/
theorem passCompletionAndRunCloseDecideNext : Obligations.PassCompletionAndRunCloseDecideNext := by
  refine ⟨fun l n => ?_, fun s src c id l m h reason bound known => ?_⟩
  · intro merged
    have merged_get (b : Fin 16) : merged[b] = l.poolNow[b] + l.poolNext[b] := Bins.add_get ..
    have retests : l.retests n = true ↔ l.pass < n ∧ ∃ b : Fin 16, merged[b] ≠ 0 := by
      simp only [Lot.retests_iff, merged_get]
    refine ⟨Lot.hasWork_iff, fun left below => ?_, fun none_or => ?_, l.completePass_total n⟩
    · have again := retests.mpr ⟨below, left⟩
      exact ⟨again, Lot.completePass_again again⟩
    · have last : l.retests n = false := Bool.eq_false_iff.mpr fun again => by
        obtain ⟨below, b, some⟩ := retests.mp again
        obtain none | reached := none_or
        · exact some (none b)
        · omega
      exact ⟨last, Lot.completePass_last last⟩
  · intro place work short closed max passed known'
    have kept : s.KeepsWork closed := .runClosed s src c id h (shortfall l reason)
    have same : m.work = l.work := by
      obtain ⟨_, found, same⟩ := kept.lot known
      rwa [Option.some.inj (found.symm.trans known')] at same
    have closes : s.closeRun src c h reason = (closed.afterClose src c id).serve src c :=
      State.closeRun_eq bound known src h reason
    have works : m.hasWork = work := Lot.hasWork_of_work same
    have limit : (closed.product m).maxRetests = max := congrArg Product.maxRetests (kept.product same)
    have retests : m.retests (closed.product m).maxRetests = l.retests max := by rw [limit, Lot.retests_of_work same]
    refine ⟨fun left unheld => ?_, fun left held => ?_, fun done again unheld => ?_, fun done again held => ?_,
      fun done last => ?_⟩
    · rw [closes, State.afterClose_works src known' (works.trans left), if_pos unheld]
    · rw [closes, State.afterClose_works src known' (works.trans left), if_neg (by simp [held]), State.serve_paused]
    · rw [closes, State.afterClose_retests src known' (works.trans done) (retests.trans again), limit]
      exact congrArg (State.serve · src c) (if_pos unheld)
    · rw [closes, State.afterClose_retests src known' (works.trans done) (retests.trans again), limit]
      refine (congrArg (State.serve · src c) (if_neg (by simp [held]))).trans (State.serve_paused ..)
    · rw [closes, State.afterClose_tests src known' (works.trans done) (retests.trans last), limit]
      rfl

end Sys2Proof.Machine
end

section
/-! Holds cleared, and the lots that this lets go on (R142, R145 to R148, R158): what HCLR and HOVC answer, what a lot
that has become unheld does, and the one clause of O34 that two lots of one id break. -/

namespace Sys2Proof.Machine

-- one theorem at a time: many at once, each with a thread of its own, can exceed the memory limit
set_option Elab.async false

/-! ## Checks and sample decisions leave the work of every lot -/

namespace State.KeepsWork

variable {r s : State}

theorem checkYield (h : r.KeepsWork s) (src : Option Port) (id : Id) : r.KeepsWork (s.checkYield src id) := by
  unfold State.checkYield
  split
  · exact h
  · split
    · exact of_ite (fun _ => h.placeHold ..) fun _ => h
    · exact h

theorem checkBin (h : r.KeepsWork s) (src : Option Port) (id : Id) (b : Fin 16) :
    r.KeepsWork (State.checkBin src id s b) := by
  unfold State.checkBin
  split
  · exact h
  · dsimp only
    split
    · exact of_ite (fun _ => h.placeHold ..) fun _ => h
    · exact h

theorem checkRatios (h : r.KeepsWork s) (src : Option Port) (id : Id) : r.KeepsWork (s.checkRatios src id) :=
  List.foldlRecOn _ _ (h.checkYield src id) fun _ u b _ => u.checkBin src id b

theorem decideSample (h : r.KeepsWork s) (id : Id) : r.KeepsWork (s.decideSample id) := by
  unfold State.decideSample
  split
  · have accepted : r.KeepsWork (s.acceptUnsampled id) := (h.onLot id _).nlot id .accepted
    have sent (product : Fin 32) (n : Nat) : r.KeepsWork (s.sendSample id product n) :=
      ((h.onLot id _).of_onlyPorts (State.onlyPorts_notify ..)).nlot id .sampling
    exact of_ite (fun _ => of_ite (fun _ => accepted) fun _ => sent _ _) fun _ => h
  · exact h

end State.KeepsWork

/-! ## No lot leaves the table -/

/-- The lot table lists the lots of the same ids. -/
def State.SameLots (s t : State) : Prop := t.lots.map Lot.id = s.lots.map Lot.id

namespace State.SameLots

variable {r s t : State}

theorem refl (s : State) : s.SameLots s := rfl

theorem of_work (h : r.SameLots s) (k : s.KeepsWork t) : r.SameLots t := by
  have ids (v : State) : v.lots.map Lot.id = (v.lots.map Lot.work).map Prod.fst := by
    rw [List.map_map]
    rfl
  rw [State.SameLots, ids, k.work, ← ids]
  exact h

theorem of_records (h : r.SameLots s) (lots : t.lots = s.lots := by rfl) : r.SameLots t := by
  rw [State.SameLots, lots]
  exact h

theorem of_onlyPorts (h : r.SameLots s) (ports : s.OnlyPorts t) : r.SameLots t := by
  rw [ports]
  exact h.of_records

theorem of_ite {p : Prop} [Decidable p] (h : p → r.SameLots s) (k : ¬p → r.SameLots t) :
    r.SameLots (if p then s else t) := by
  split
  · exact h ‹_›
  · exact k ‹_›

/-- A lot that was in the table still is. -/
theorem lot (h : s.SameLots t) {id : Id} {l : Lot} (known : s.lot id = some l) : ∃ m, t.lot id = some m := by
  have listed (v : State) : (v.lot id).isSome = true ↔ id ∈ v.lots.map Lot.id := by
    simp [State.lot, List.find?_isSome]
  exact Option.isSome_iff_exists.mp ((listed t).mpr (h ▸ (listed s).mp (by simp [known])))

/-! ### The updates of the records -/

theorem onLot (h : r.SameLots s) (id : Id) (f : Lot → Lot) (same : ∀ l, (f l).id = l.id := by exact fun _ => rfl) :
    r.SameLots (s.onLot id f) := (State.onLot_ids same).trans h

theorem onCell (h : r.SameLots s) (c : CellNo) (f : Cell → Cell) : r.SameLots (s.onCell c f) := h

theorem moveCell (h : r.SameLots s) (c : CellNo) (f : Cell → Cell) : r.SameLots (s.moveCell c f) := h

theorem nlot (h : r.SameLots s) (id : Id) (cause : Cause) (hold : Option (HoldKind × Nat) := none) :
    r.SameLots (s.nlot id cause hold) := h.of_onlyPorts (s.onlyPorts_nlot id cause hold)

theorem joinQueue (h : r.SameLots s) (id : Id) : r.SameLots (s.joinQueue id) := by
  unfold State.joinQueue
  split
  · exact (h.onLot id fun l => { l with joinStamp := s.clock.stamp }).of_records
  · exact h

theorem placeHold (h : r.SameLots s) (src : Option Port) (id : Id) (kind : HoldKind) (a d : Nat) :
    r.SameLots (s.placeHold src id kind a d) := h.of_work ((KeepsWork.refl s).placeHold src id kind a d)

theorem decideSample (h : r.SameLots s) (id : Id) : r.SameLots (s.decideSample id) :=
  h.of_work ((KeepsWork.refl s).decideSample id)

/-! ### Runs, preparations and bindings -/

theorem lotTested (h : r.SameLots s) (src : Option Port) (c : CellNo) (id : Id) :
    r.SameLots (s.lotTested src c id) := by
  have left : r.SameLots (((s.onLot id fun l => { l with cell := none, state := .tested }).nlot id .tested).onCell c
      fun x => { x with bound := none }) := ((h.onLot id _).nlot id .tested).onCell c _
  exact (left.of_work (((KeepsWork.refl _).checkRatios src id).decideSample id)).moveCell c _

theorem openRun (h : r.SameLots s) (src : Option Port) (c : CellNo) (l : Lot) : r.SameLots (s.openRun src c l) :=
  of_ite (fun _ => (h.placeHold src l.id .site c.val 0).moveCell c _) fun _ =>
    ((h.onLot l.id _).moveCell c _).of_onlyPorts (State.onlyPorts_notifyMembers _ c _)

theorem goOn (h : r.SameLots s) (src : Option Port) (c : CellNo) : r.SameLots (s.goOn src c) := by
  unfold State.goOn
  split
  · exact h
  · rename_i l _
    have completed := h.onLot l.id (fun m => m.completePass (s.product l).maxRetests)
      fun m => (m.completePass_stays _).id
    exact of_ite (fun _ => h.openRun src c l) fun _ => of_ite (fun _ => completed.openRun src c _)
      fun _ => completed.lotTested src c _

theorem testPreparation (h : r.SameLots s) (src : Option Port) (c : CellNo) : r.SameLots (s.testPreparation src c) := by
  unfold State.testPreparation
  split
  · have discarded := h.onCell c fun x => { x with preparation := none }
    refine of_ite (fun _ => ?_) fun _ => h
    dsimp only
    split
    · exact of_ite (fun _ => discarded.goOn src c) fun _ => discarded.moveCell c _
    · exact discarded
  · exact h

theorem buildProgram (h : r.SameLots s) (c : CellNo) (p : Product) : r.SameLots (s.buildProgram c p).1 := by
  unfold State.buildProgram
  split
  · exact h
  · exact (h.of_onlyPorts (s.onlyPorts_notifyMember _ _)).onCell c _

theorem buildThermal (h : r.SameLots s) (c : CellNo) (p : Product) : r.SameLots (s.buildThermal c p).1 := by
  unfold State.buildThermal
  dsimp only
  split
  · split
    · split <;> exact h
    · exact h
  · exact (h.of_onlyPorts (s.onlyPorts_notifyMember _ _)).onCell c _

theorem prepare (h : r.SameLots s) (src : Option Port) (c : CellNo) : r.SameLots (s.prepare src c) := by
  unfold State.prepare
  split
  · exact h
  · exact (((h.buildProgram c _).buildThermal c _).moveCell c _).testPreparation src c

theorem bind (h : r.SameLots s) (src : Option Port) (id : Id) (c : CellNo) : r.SameLots (s.bind src id c) :=
  ((((h.of_records (t := s.leaveQueue id)).onLot id _).nlot id .bound).onCell c _).prepare src c

theorem serve (h : r.SameLots s) (src : Option Port) (c : CellNo) : r.SameLots (s.serve src c) :=
  State.serve_keeps r.SameLots (fun _ id _ u => u.bind src id c) h

theorem joinAndOffer (h : r.SameLots s) (src : Option Port) (id : Id) : r.SameLots (s.joinAndOffer src id) :=
  State.offer_keeps r.SameLots (fun _ k c u => u.bind src k c) (h.joinQueue id)

theorem becomeUnheld (h : r.SameLots s) (src : Option Port) (id : Id) : r.SameLots (s.becomeUnheld src id) := by
  unfold State.becomeUnheld
  split
  · exact h
  · split
    · exact h.joinAndOffer src id
    · split
      · exact of_ite (fun _ => (h.goOn src _).serve src _) fun _ => h
      · exact h
    · exact h.decideSample id
    · exact of_ite (fun _ => h) fun _ => h.placeHold ..
    all_goals exact h

end State.SameLots

/-! ## A lot that has become unheld (R111, R148, R158) -/

section becomeUnheld
variable {s : State} {id : Id} {l : Lot} (src : Option Port)

/-- What an unheld lot does, by its state and its cell's; a PAUSED cell goes on as `State.goOn` says. -/
theorem State.becomeUnheld_outcomes (known : s.lot id = some l) :
    (l.state = .waiting → s.becomeUnheld src id =
      ({ (s.onLot id fun l => { l with joinStamp := s.clock.stamp }) with
        queue := s.queue ++ [⟨id, l.basePriority⟩] } : State).offer src id)
    ∧ (∀ c, l.state = .bound → l.cell = some c → (s.cell c).state = .paused →
        s.becomeUnheld src id = (s.goOn src c).serve src c)
    ∧ (∀ c, l.state = .bound → l.cell = some c → (s.cell c).state ≠ .paused → s.becomeUnheld src id = s)
    ∧ (l.state = .tested → s.becomeUnheld src id = s.decideSample id)
    ∧ (l.state = .sampling → l.samplePending = false → s.becomeUnheld src id = s.placeHold src id .qa 0 l.rejects)
    ∧ (l.state = .sampling → l.samplePending = true → s.becomeUnheld src id = s)
    ∧ (l.state = .accepted ∨ l.state = .released → s.becomeUnheld src id = s) := by
  refine ⟨fun state => ?_, fun c state cell paused => ?_, fun c state cell working => ?_, fun state => ?_,
    fun state failed => ?_, fun state pending => ?_, fun state => ?_⟩
  · simp [State.becomeUnheld, known, state, State.joinAndOffer, State.joinQueue]
  · simp [State.becomeUnheld, known, state, cell, paused]
  · simp [State.becomeUnheld, known, state, cell, working]
  · simp [State.becomeUnheld, known, state]
  · simp [State.becomeUnheld, known, state, failed]
  · simp [State.becomeUnheld, known, state, pending]
  · obtain state | state := state <;> simp [State.becomeUnheld, known, state]

section retests
variable {c : CellNo} (known : s.lot id = some l) (state : l.state = .bound) (cell : l.cell = some c)
  (paused : (s.cell c).state = .paused) (bound : (s.cell c).bound = some id) (done : l.hasWork = false)
  (again : l.retests (s.product l).maxRetests = true)
include known state cell paused bound done again

/-- A PAUSED cell's lot with no work left begins its retest pass: every lot of its id completes its pass by the
maximum of the one found. -/
theorem State.becomeUnheld_retests : s.becomeUnheld src id =
    ((s.onLot id fun m => m.completePass (s.product l).maxRetests).openRun src c
      (l.completePass (s.product l).maxRetests)).serve src c := by
  obtain rfl := s.lot_id known
  have boundLot : s.boundLot c = some l := by rw [State.boundLot, bound, Option.bind_some, known]
  rw [(State.becomeUnheld_outcomes src known).2.1 c state cell paused, State.goOn_retests src boundLot done again]

/-- Where no other lot has its id, that maximum is each lot's own. -/
theorem State.becomeUnheld_retests_once (once : (s.lots.map Lot.id).Nodup) : s.becomeUnheld src id =
    ((s.onLot id fun m => m.completePass (s.product m).maxRetests).openRun src c
      (l.completePass (s.product l).maxRetests)).serve src c := by
  have own : (s.onLot id fun m => m.completePass (s.product l).maxRetests) =
      s.onLot id fun m => m.completePass (s.product m).maxRetests := by
    refine congrArg (fun lots => { s with lots := lots }) (List.map_congr_left fun m mem => ?_)
    split
    · rename_i at_id
      obtain rfl := Option.some.inj (known.symm.trans (at_id ▸ State.lot_of_mem once mem))
      rfl
    · rfl
  rw [State.becomeUnheld_retests src known state cell paused bound done again, own]

end retests

end becomeUnheld

/-- The lot goes on if nothing holds it any more. -/
def State.goesOnIfUnheld (s : State) (src : Option Port) (id : Id) : State :=
  if s.lotUnheld id then s.becomeUnheld src id else s

theorem State.goesOnIfUnheld_lot {s : State} {id : Id} {l : Lot} (known : s.lot id = some l) (src : Option Port) :
    ∃ m, (s.goesOnIfUnheld src id).lot id = some m :=
  (State.SameLots.of_ite (fun _ => (State.SameLots.refl s).becomeUnheld src id) fun _ => .refl s).lot known

/-! ## HCLR (R145 to R147) -/

section clear
variable {s : State} {id : Id} {l : Lot}

theorem State.holdStatus_eq (known : s.lot id = some l) : s.holdStatus id =
    be 1 l.holdCount ++ [if l.overflow then 0x01 else 0x00] ++ [l.state.byte] := by
  simp only [State.holdStatus, State.lotStateOf, known, Option.map_some, Option.getD_some]
  rfl

/-- The hold is out of the list, and NLOT shows it (R146). -/
def State.holdTaken (s : State) (id : Id) (kind : HoldKind) (a : Nat) : State :=
  (s.removeHold id kind a).nlot id .holdCleared (some (kind, a))

theorem State.holdTaken_lot (known : s.lot id = some l) (kind : HoldKind) (a : Nat) :
    (s.holdTaken id kind a).lot id = some { l with holdCount := l.holdCount - 1 } := by
  rw [State.holdTaken, State.nlot_lot]
  exact State.onLot_lot_same { s with holds := s.holds.filter fun r => !r.is id kind a }
    (fun l => { l with holdCount := l.holdCount - 1 }) known fun _ => rfl

/-- A disposition leaves its lot in the table. -/
theorem State.dispose_lot (known : s.lot id = some l) (d : Disposition) : ∃ m, (s.dispose id d).lot id = some m := by
  have same : s.SameLots (s.dispose id d) := by
    cases d with
    | none => exact .refl s
    | accept => exact ((State.SameLots.refl s).onLot id _).nlot id .accepted
    | resample => exact ((State.SameLots.refl s).onLot id _).nlot id .resample
  exact same.lot known

end clear

section hclr
variable {s u : State} {p : Port} {frame : Frame} {f : HclrFields} {reply : Reply}

theorem exec_hclr (range : f.InRange) (asks : s.Asks p .hclr f.bytes)
    (owns : ∀ frame, hclrOwner p frame f s = (u, reply)) :
    exec (.hclr p) s = .next (u.answer p (some .hclr) reply) := exec_carries rfl asks rfl (readHclr_bytes range) owns

theorem hclrOwner_unknown (unknown : s.lot f.lot = none) :
    hclrOwner p frame f s = (s, .check .unknownLot f.lot) := by
  simp [hclrOwner, unknown]

variable {l : Lot} (known : s.lot f.lot = some l)
include known

theorem hclrOwner_notOwner (other : p ≠ f.kind.owner) : hclrOwner p frame f s = (s, .check .notOwner f.lot) := by
  simp [hclrOwner, known, other]

variable (own : p = f.kind.owner)
include own

theorem hclrOwner_noHold (absent : s.hasHold f.lot f.kind f.arg = false) :
    hclrOwner p frame f s = (s, .check .noHold f.lot) := by
  simp [hclrOwner, known, own, absent]

variable (present : s.hasHold f.lot f.kind f.arg = true)
include present

theorem hclrOwner_misfit (qa : f.kind = .qa) (misfit : dispositionFits l f.disposition = false) :
    hclrOwner p frame f s = (s, .check .wrongState f.lot) := by
  rw [qa] at own present
  simp [hclrOwner, known, own, present, qa, misfit]

/-- The hold is taken out, its disposition done, and the lot goes on if nothing else holds it (R146 to R148). -/
theorem hclrOwner_clears (fits : f.kind = .qa → dispositionFits l f.disposition = true) : hclrOwner p frame f s =
    let done := ((s.holdTaken f.lot f.kind f.arg).dispose f.lot f.disposition).goesOnIfUnheld (some p) f.lot
    (done, .good (done.holdStatus f.lot)) := by
  have fit : ¬(f.kind = .qa ∧ (!dispositionFits l f.disposition) = true) := fun x => by simp [fits x.1] at x
  rw [hclrOwner, known]
  dsimp only
  rw [if_neg (not_not.mpr own), if_neg (by simp [present]), if_neg fit]
  rfl

end hclr

/-- HCLR, the first part of O34: its refusals in their order, and the hold that it clears. -/
theorem exec_hclr_outcomes {s : State} {p : Port} {f : HclrFields} (range : f.InRange) (asks : s.Asks p .hclr f.bytes) :
    let answers (u : State) (r : Reply) : Prop := exec (.hclr p) s = .next (u.answer p (some .hclr) r)
    (s.lot f.lot = none → answers s (.check .unknownLot f.lot))
    ∧ ∀ l, s.lot f.lot = some l →
      (p ≠ f.kind.owner → answers s (.check .notOwner f.lot))
      ∧ (p = f.kind.owner → s.hasHold f.lot f.kind f.arg = false → answers s (.check .noHold f.lot))
      ∧ (p = f.kind.owner → s.hasHold f.lot f.kind f.arg = true → f.kind = .qa →
          dispositionFits l f.disposition = false → answers s (.check .wrongState f.lot))
      ∧ (p = f.kind.owner → s.hasHold f.lot f.kind f.arg = true →
          (f.kind = .qa → dispositionFits l f.disposition = true) →
          let done := ((s.holdTaken f.lot f.kind f.arg).dispose f.lot f.disposition).goesOnIfUnheld (some p) f.lot
          ∃ m, done.lot f.lot = some m ∧ answers done (.good
            (be 1 m.holdCount ++ [if m.overflow then 0x01 else 0x00] ++ [m.state.byte]))) := by
  intro answers
  have answered {u : State} {reply : Reply} := exec_hclr (u := u) (reply := reply) range asks
  refine ⟨fun unknown => answered fun _ => hclrOwner_unknown unknown, fun l known =>
    ⟨fun other => answered fun _ => hclrOwner_notOwner known other,
      fun own absent => answered fun _ => hclrOwner_noHold known own absent,
      fun own present qa misfit => answered fun _ => hclrOwner_misfit known own present qa misfit,
      fun own present fits => ?_⟩⟩
  obtain ⟨_, known'⟩ := State.dispose_lot (State.holdTaken_lot known f.kind f.arg) f.disposition
  obtain ⟨m, found⟩ := State.goesOnIfUnheld_lot known' (some p)
  exact ⟨m, found, answered fun _ => State.holdStatus_eq found ▸ hclrOwner_clears known own present fits⟩

/-! ## HOVC (R142) -/

section hovc
variable {s u : State} {id : Id} {frame : Frame} {reply : Reply}

theorem exec_hovc (nonzero : id ≠ 0) (asks : s.Asks 0 .hovc (be32 id))
    (owns : ∀ frame, hovcOwner frame id s = (u, reply)) :
    exec (.hovc 0) s = .next (u.answer 0 (some .hovc) reply) := exec_carries rfl asks rfl (readLotId_bytes nonzero) owns

theorem hovcOwner_unknown (unknown : s.lot id = none) : hovcOwner frame id s = (s, .check .unknownLot id) := by
  simp [hovcOwner, unknown]

/-- The overflow flag is clear, and NLOT shows it. -/
def State.overflowCleared (s : State) (id : Id) : State :=
  (s.onLot id fun l => { l with overflow := false }).nlot id .overflowCleared

variable {l : Lot} (known : s.lot id = some l)
include known

theorem State.overflowCleared_lot : (s.overflowCleared id).lot id = some { l with overflow := false } := by
  rw [State.overflowCleared, State.nlot_lot]
  exact s.onLot_lot_same _ known fun _ => rfl

theorem hovcOwner_noHold (clear : l.overflow = false) : hovcOwner frame id s = (s, .check .noHold id) := by
  simp [hovcOwner, known, clear]

theorem hovcOwner_clears (overflow : l.overflow = true) : hovcOwner frame id s =
    let done := (s.overflowCleared id).goesOnIfUnheld (some 0) id
    (done, .good (be 1 (((done.lot id).map Lot.holdCount).getD 0) ++ done.lotStateOf id)) := by
  rw [hovcOwner, known]
  exact if_neg (by simp [overflow])

end hovc

/-- HOVC, the second part of O34: its refusals, and the flag that it clears. -/
theorem exec_hovc_outcomes {s : State} {id : Id} (nonzero : id ≠ 0) (asks : s.Asks 0 .hovc (be32 id)) :
    let answers (u : State) (r : Reply) : Prop := exec (.hovc 0) s = .next (u.answer 0 (some .hovc) r)
    (s.lot id = none → answers s (.check .unknownLot id))
    ∧ ∀ l, s.lot id = some l →
      (l.overflow = false → answers s (.check .noHold id))
      ∧ (l.overflow = true →
          let done := (s.overflowCleared id).goesOnIfUnheld (some 0) id
          ∃ m, done.lot id = some m ∧ answers done (.good (be 1 m.holdCount ++ [m.state.byte]))) := by
  intro answers
  have answered {u : State} {reply : Reply} := exec_hovc (u := u) (reply := reply) nonzero asks
  refine ⟨fun unknown => answered fun _ => hovcOwner_unknown unknown, fun l known =>
    ⟨fun clear => answered fun _ => hovcOwner_noHold known clear, fun overflow => ?_⟩⟩
  obtain ⟨m, found⟩ := State.goesOnIfUnheld_lot (State.overflowCleared_lot known) (some 0)
  refine ⟨m, found, answered fun _ => (hovcOwner_clears known overflow).trans ?_⟩
  simp only [State.lotStateOf, found]
  rfl

/-! ## Two lots of one id -/

/-- A lot BOUND to cell 0 at the end of pass 0, its one unit in the pool of the next pass. -/
def twinLot (product : Fin 32) : Lot where
  id := 1
  product := product
  cls := .production
  basePriority := 0
  sequence := 1
  joinStamp := 0
  state := .bound
  cell := some 0
  pass := 0
  runCount := 0
  started := 1
  tested := 1
  lost := 0
  rejects := 0
  final := Bins.zero
  poolNow := Bins.zero
  poolNext := Bins.zero.inc 0
  sampleSize := none
  holdCount := 0
  overflow := false
  samplePending := false

/-- Two lots of one id and of two products, of which product 1 alone has a retest pass; a state without the distinct ids
of R55 and `State.LotsSound`, so none that the part comes to. -/
def twins : State :=
  { State.reset.setCell 0 { Cell.vacant with state := .paused, bound := some 1, active := 1 } with
    lots := [twinLot 1, twinLot 0]
    tables := { Tables.cleared with
      products := Tables.cleared.products.set 1 { Product.undefined with maxRetests := 1 } } }

/-- Both lots begin pass 1, by the maximum of the one found. -/
theorem twins_passes : (twins.becomeUnheld none 1).lots.map Lot.pass = [1, 1] := by decide

/-- Refutes O34: of a lot that begins its retest pass, the statement completes the pass of each lot of the id by that
lot's own maximum of retests (its inner `l` hides the outer one), where the model takes the maximum of the lot found, as
R109 and R110 mean it for the one lot there is. They differ in `twins`, whose second lot the statement closes in pass 0. With
distinct ids the clause holds (`State.becomeUnheld_retests_once`); the parts on HCLR and HOVC hold in every state
(`exec_hclr_outcomes`, `exec_hovc_outcomes`). -/
theorem not_clearedHoldLetsLotGoOn : ¬Obligations.ClearedHoldLetsLotGoOn := by
  intro holds
  have goesOn := holds.2.2 twins none 1 (twinLot 1) rfl
  have again := (goesOn.2.1 0 rfl rfl rfl rfl).2.1 (by decide) (by decide)
  have closed := congrArg (fun u : State => u.lots.map Lot.pass) again
  exact absurd (twins_passes.symm.trans closed) (by decide)

end Sys2Proof.Machine
end
